-- ==== Sys2Proof/Word.lean ====
section
/-! DEFINITION. The widths of the block: bytes, 16-bit words, 32-bit words, 7-bit device addresses (00_scope.md R7). -/

namespace Sys2Proof

/-- u8: a byte on the bus, an operation word, a host register of 8 bits. -/
abbrev Byte := BitVec 8

/-- A 16-bit word: a command word, a raw word, `TEMP` (two's complement), `HUM`. -/
abbrev W16 := BitVec 16

/-- u32: `SERIAL`. -/
abbrev W32 := BitVec 32

/-- A 7-bit device address. -/
abbrev Addr7 := BitVec 7

end Sys2Proof
end

