-- ==== Sys2Proof/Config.lean ====
section
/-! DEFINITION. What an implementation fixes (00_scope.md R6), the defaults of its parameters, and the free values that stand for what the
spec leaves open. -/

namespace Sys2Proof

/-- Repeatability, the three legal values of `rep` (30_encoding.md R93). -/
inductive Rep where
  | high
  | medium
  | low
deriving DecidableEq, Repr, Inhabited

/-- `SERIAL_MODE` (00_scope.md R6; 92_eei_decisions.md D18). -/
inductive SerialMode where
  | raw4
  | checked6
deriving DecidableEq, Repr, Inhabited

/-- The peer's answer in an acknowledge slot, `peer_ack()` (40_bus_transport.md R132). -/
inductive Ack where
  | ack
  | nack
  | timeout
deriving DecidableEq, Repr, Inhabited

/-- The peer's answer to a byte clocked in, `peer_byte()` (40_bus_transport.md R132). -/
inductive PeerByte where
  | byte (v : Byte)
  | timeout
deriving DecidableEq, Repr, Inhabited

/-- What a line driver does (10_state.md R36). -/
inductive Line where
  | released
  | low
deriving DecidableEq, Repr, Inhabited

/-- One command word for each repeatability. -/
structure PerRep where
  high : W16
  medium : W16
  low : W16
deriving DecidableEq, Repr, Inhabited

/-- One command word for each of the eight values of the 3-bit rate index (30_encoding.md R91, R94). -/
structure PerRate where
  r0 : W16
  r1 : W16
  r2 : W16
  r3 : W16
  r4 : W16
  r5 : W16
  r6 : W16
  r7 : W16
deriving DecidableEq, Repr, Inhabited

/-- The parameters of 00_scope.md R6 that the model takes as an argument. `HOST_PORT`, `TICK_SOURCE`, `RESET_KIND`, `PIN_SCL` and `PIN_SDA`
have no value in a model of events (R6). -/
structure Config where
  /-- `DEV_ADDR`. -/
  devAddr : Addr7
  /-- `CLOCK_STRETCH_TOL`. No rule reads it: "in the model both are the oracle's `TIMEOUT` answer" (40_bus_transport.md R139). -/
  clockStretchTol : Nat
  /-- `T_SETTLE_SERIAL_MS`. -/
  tSettleSerialMs : Nat
  /-- `T_SETTLE_MEAS_MS`. -/
  tSettleMeasMs : Nat
  /-- `T_SETTLE_RESET_MS`. -/
  tSettleResetMs : Nat
  serialMode : SerialMode
  hasPeriodicStart : Bool
  /-- `N_RATES`, 1 to 8. -/
  nRates : Nat
  cmdSoftReset : W16
  cmdReadSerial : W16
  cmdSsStretch : PerRep
  cmdSsNostretch : PerRep
  /-- `CMD_PERIODIC[0][rate]`. -/
  cmdPeriodicHigh : PerRate
  /-- `CMD_PERIODIC[1][rate]`. -/
  cmdPeriodicMedium : PerRate
  /-- `CMD_PERIODIC[2][rate]`. -/
  cmdPeriodicLow : PerRate
  cmdFetch : W16
deriving DecidableEq, Repr, Inhabited

/-- The defaults of 00_scope.md R6 and 30_encoding.md R98. PRESUMED: the device address, `N_RATES` and every command word are the spec's
`[from general knowledge, not in source]` defaults (log 2); unsafe for a claim that rests on their values. DESIGN CHOICE: the words of
rate indices 5 to 7, which the spec does not give and no operation sends while `N_RATES` is 5, are 0 (log 23). -/
def Config.default : Config where
  devAddr := 0x44#7
  clockStretchTol := 0
  tSettleSerialMs := 500
  tSettleMeasMs := 50
  tSettleResetMs := 0
  serialMode := .raw4
  hasPeriodicStart := false
  nRates := 5
  cmdSoftReset := 0x30A2#16
  cmdReadSerial := 0x3780#16
  cmdSsStretch := ⟨0x2C06#16, 0x2C0D#16, 0x2C10#16⟩
  cmdSsNostretch := ⟨0x2400#16, 0x240B#16, 0x2416#16⟩
  cmdPeriodicHigh := ⟨0x2032#16, 0x2130#16, 0x2236#16, 0x2334#16, 0x2737#16, 0#16, 0#16, 0#16⟩
  cmdPeriodicMedium := ⟨0x2024#16, 0x2126#16, 0x2220#16, 0x2322#16, 0x2721#16, 0#16, 0#16, 0#16⟩
  cmdPeriodicLow := ⟨0x202F#16, 0x212D#16, 0x222B#16, 0x2329#16, 0x272A#16, 0#16, 0#16, 0#16⟩
  cmdFetch := 0xE000#16

/-- `T_BUS_TIMEOUT_MS`, fixed at 1000 (00_scope.md R6, 92_eei_decisions.md D13). -/
def Config.busTimeoutMs : Nat := 1000

/-- `CRC_SEED` (42_checksum.md R181). -/
def Config.crcSeed : Byte := 0xFF#8

/-- The low 8 bits of `CRC_POLY` = 0x131, the constant applied to the 8-bit remainder (42_checksum.md R180, 90_conflicts.md C2, C10). -/
def Config.crcPolyLow : Byte := 0x31#8

/-- FREE VALUE: an acknowledge answer of the peer where `State.acks` is empty (40_bus_transport.md R132; log 6). -/
opaque Config.freeAck : Nat → Ack

/-- FREE VALUE: a byte answer of the peer where `State.bytes` is empty (40_bus_transport.md R132; log 6). -/
opaque Config.freePeerByte : Nat → PeerByte

/-- FREE VALUE: a byte of `RXBUF` once its content is discarded (10_state.md R33; log 4). -/
opaque Config.freeByte : Nat → Byte

/-- FREE VALUE: a line driver while a transaction is open (10_state.md R36; log 5). -/
opaque Config.freeLine : Nat → Line

end Sys2Proof
end

