-- ==== Sys2Proof/Syntax.lean ====
section
/-! DEFINITION. The syntax: the closed enumeration of commands (30_encoding.md R98, R109), the operations the host can start, and `Instr`,
one constructor for each row of spec/opcode_table.json. -/

namespace Sys2Proof

/-- The command enumeration (30_encoding.md R98): "a closed tagged variant (one constructor per command)" (R109). -/
inductive Command where
  | softReset
  | readSerial
  | ssStretch (rep : Rep)
  | ssNostretch (rep : Rep)
  | periodic (rep : Rep) (rate : BitVec 3)
  | fetch
deriving DecidableEq, Repr, Inhabited

/-- The operations the host can start (44_session_ops.md R230). -/
inductive HostOp where
  | init
  | rdsn
  | meas (rep : Rep)
  | pstart (rate : BitVec 3) (rep : Rep)
deriving DecidableEq, Repr, Inhabited

/-- The formats that carry an encoding (30_encoding.md R90); `none` is a row of the table whose "encoding" is none. -/
inductive Format where
  | opw
  | addrb
  | cmd16
  | none
deriving DecidableEq, Repr, Inhabited

/-- One constructor for each row of spec/opcode_table.json, in the table's order. -/
inductive Instr where
  /-- INIT (44_session_ops.md R233). -/
  | init
  /-- RDSN (44_session_ops.md R234). -/
  | rdsn
  /-- MEAS.H (44_session_ops.md R235). -/
  | measH
  /-- MEAS.M. -/
  | measM
  /-- MEAS.L. -/
  | measL
  /-- PSTART (44_session_ops.md R236). -/
  | pstart (rate : BitVec 3) (rep : Rep)
  /-- (illegal): an operation word `w` that is no row above (30_encoding.md R95, 44_session_ops.md R237). -/
  | illegal (w : Byte)
  /-- WAIT, the pseudo-operation (30_encoding.md R106). -/
  | wait
  /-- WRITE (40_bus_transport.md R133). -/
  | write (addr : Addr7) (bytes : List Byte)
  /-- READ (40_bus_transport.md R134). -/
  | read (addr : Addr7) (len : Nat)
  /-- SEND_CMD (41_command_protocol.md R160). -/
  | sendCmd (cmd : Command)
  /-- READ_REPLY (41_command_protocol.md R161). -/
  | readReply (byteCount : Nat)
  /-- DELAY (41_command_protocol.md R162). -/
  | delay (ms : Nat)
  /-- CRC8 (42_checksum.md R180). -/
  | crc8 (b0 b1 seed : Byte)
  /-- CHECK_GROUP (42_checksum.md R182). -/
  | checkGroup (d0 d1 c : Byte)
  /-- CHECK_FRAME over `RXBUF` (42_checksum.md R183). -/
  | checkFrame
  /-- CONV_T (43_decoder.md R204). -/
  | convT (rawT : W16)
  /-- CONV_RH (43_decoder.md R205). -/
  | convRh (rawH : W16)
  /-- T_OK (43_decoder.md R207). -/
  | tOk (rawT : W16)
  /-- H_OK (43_decoder.md R209). -/
  | hOk (rawH : W16)
  /-- DECODE_MEAS over `RXBUF` (43_decoder.md R210). -/
  | decodeMeas
  /-- DECODE_SERIAL_raw4 over `RXBUF` (43_decoder.md R212). -/
  | decodeSerialRaw4
  /-- DECODE_SERIAL_checked6 over `RXBUF` (43_decoder.md R213). -/
  | decodeSerialChecked6
  /-- ADDRB_W, the first byte of a WRITE (30_encoding.md R96). -/
  | addrbW (addr : Addr7)
  /-- ADDRB_R, the first byte of a READ (30_encoding.md R96). -/
  | addrbR (addr : Addr7)
  /-- CMD_SOFT_RESET (30_encoding.md R98). -/
  | cmdSoftReset
  /-- CMD_READ_SERIAL (30_encoding.md R98). -/
  | cmdReadSerial
  /-- CMD_SS_STRETCH.H (30_encoding.md R98). -/
  | cmdSsStretchH
  /-- CMD_SS_STRETCH.M (30_encoding.md R98). -/
  | cmdSsStretchM
  /-- CMD_SS_STRETCH.L (30_encoding.md R98). -/
  | cmdSsStretchL
  /-- CMD_SS_NOSTRETCH.H (30_encoding.md R98). -/
  | cmdSsNostretchH
  /-- CMD_SS_NOSTRETCH.M (30_encoding.md R98). -/
  | cmdSsNostretchM
  /-- CMD_SS_NOSTRETCH.L (30_encoding.md R98). -/
  | cmdSsNostretchL
  /-- CMD_PERIODIC.H.0 (30_encoding.md R98). -/
  | cmdPeriodicH0
  /-- CMD_PERIODIC.M.0 (30_encoding.md R98). -/
  | cmdPeriodicM0
  /-- CMD_PERIODIC.L.0 (30_encoding.md R98). -/
  | cmdPeriodicL0
  /-- CMD_PERIODIC.H.1 (30_encoding.md R98). -/
  | cmdPeriodicH1
  /-- CMD_PERIODIC.M.1 (30_encoding.md R98). -/
  | cmdPeriodicM1
  /-- CMD_PERIODIC.L.1 (30_encoding.md R98). -/
  | cmdPeriodicL1
  /-- CMD_PERIODIC.H.2 (30_encoding.md R98). -/
  | cmdPeriodicH2
  /-- CMD_PERIODIC.M.2 (30_encoding.md R98). -/
  | cmdPeriodicM2
  /-- CMD_PERIODIC.L.2 (30_encoding.md R98). -/
  | cmdPeriodicL2
  /-- CMD_PERIODIC.H.3 (30_encoding.md R98). -/
  | cmdPeriodicH3
  /-- CMD_PERIODIC.M.3 (30_encoding.md R98). -/
  | cmdPeriodicM3
  /-- CMD_PERIODIC.L.3 (30_encoding.md R98). -/
  | cmdPeriodicL3
  /-- CMD_PERIODIC.H.4 (30_encoding.md R98). -/
  | cmdPeriodicH4
  /-- CMD_PERIODIC.M.4 (30_encoding.md R98). -/
  | cmdPeriodicM4
  /-- CMD_PERIODIC.L.4 (30_encoding.md R98). -/
  | cmdPeriodicL4
  /-- CMD_FETCH (30_encoding.md R98). -/
  | cmdFetch
deriving DecidableEq, Repr, Inhabited

/-- The format of a row's encoding. -/
def Instr.format : Instr → Format
  | .init | .rdsn | .measH | .measM | .measL | .pstart _ _ | .illegal _ => .opw
  | .wait | .write _ _ | .read _ _ | .sendCmd _ | .readReply _ | .delay _ | .crc8 _ _ _ | .checkGroup _ _ _ | .checkFrame => .none
  | .convT _ | .convRh _ | .tOk _ | .hOk _ | .decodeMeas | .decodeSerialRaw4 | .decodeSerialChecked6 => .none
  | .addrbW _ | .addrbR _ => .addrb
  | .cmdSoftReset | .cmdReadSerial | .cmdSsStretchH | .cmdSsStretchM | .cmdSsStretchL | .cmdSsNostretchH | .cmdSsNostretchM | .cmdSsNostretchL => .cmd16
  | .cmdPeriodicH0 | .cmdPeriodicM0 | .cmdPeriodicL0 => .cmd16
  | .cmdPeriodicH1 | .cmdPeriodicM1 | .cmdPeriodicL1 => .cmd16
  | .cmdPeriodicH2 | .cmdPeriodicM2 | .cmdPeriodicL2 => .cmd16
  | .cmdPeriodicH3 | .cmdPeriodicM3 | .cmdPeriodicL3 => .cmd16
  | .cmdPeriodicH4 | .cmdPeriodicM4 | .cmdPeriodicL4 => .cmd16
  | .cmdFetch => .cmd16

end Sys2Proof
end

