-- ==== Sys2Proof/WellFormed.lean ====
section
/-! DEFINITION. Which instructions are well formed: operands in the range their rule requires. -/

namespace Sys2Proof

/-- An 8-bit word that has the form of an operation, whatever the configuration: INIT, RDSN, MEAS with `rep` 0 to 2, PSTART with `rep` 0 to 2
(30_encoding.md R92, R95). Whether a word of PSTART's form is legal depends on `HAS_PERIODIC_START` and `N_RATES` as well (log 15). -/
def isOpForm (w : Byte) : Bool :=
  w == 0x20#8 || w == 0x40#8 || w == 0x60#8 || w == 0x61#8 || w == 0x62#8 ||
    (w.extractLsb' 5 3 == 4#3 && w.extractLsb' 0 2 != 3#2)

/-- Operands in range: (illegal) holds a word that has no operation's form (30_encoding.md R95); WRITE sends 2 bytes, READ and READ_REPLY read 4 or 6
(20_memory.md R64, 92_eei_decisions.md D32, 41_command_protocol.md R161; log 18). A rate index in a command or in PSTART is not held to `N_RATES`, which is
no part of the syntax: SEND_CMD sends the configured word (DESIGN CHOICE, log 29) and PSTART's meaning refuses it (log 15). Every other operand is in range
by its type. -/
def Instr.wf : Instr → Bool
  | .illegal w => !isOpForm w
  | .write _ bytes => bytes.length == 2
  | .read _ len => len == 4 || len == 6
  | .readReply byteCount => byteCount == 4 || byteCount == 6
  | .init | .rdsn | .measH | .measM | .measL | .pstart _ _ | .wait | .sendCmd _ | .delay _ | .crc8 _ _ _ | .checkGroup _ _ _ => true
  | .checkFrame | .convT _ | .convRh _ | .tOk _ | .hOk _ | .decodeMeas | .decodeSerialRaw4 | .decodeSerialChecked6 => true
  | .addrbW _ | .addrbR _ => true
  | .cmdSoftReset | .cmdReadSerial | .cmdSsStretchH | .cmdSsStretchM | .cmdSsStretchL | .cmdSsNostretchH | .cmdSsNostretchM | .cmdSsNostretchL => true
  | .cmdPeriodicH0 | .cmdPeriodicM0 | .cmdPeriodicL0 => true
  | .cmdPeriodicH1 | .cmdPeriodicM1 | .cmdPeriodicL1 => true
  | .cmdPeriodicH2 | .cmdPeriodicM2 | .cmdPeriodicL2 => true
  | .cmdPeriodicH3 | .cmdPeriodicM3 | .cmdPeriodicL3 => true
  | .cmdPeriodicH4 | .cmdPeriodicM4 | .cmdPeriodicL4 => true
  | .cmdFetch => true

end Sys2Proof
end

