-- ==== Sys2Proof/Decode.lean ====
section
/-! DEFINITION. The decoder, total on any bytes and rejecting by name, and after it the encoder (30_encoding.md). -/

namespace Sys2Proof

/-- `rep` of an operation word or of `LOP`: 0 high, 1 medium, 2 low, 3 reserved (30_encoding.md R93). -/
def repOfCode (c : BitVec 2) : Option Rep :=
  match c.toNat with
  | 0 => some .high
  | 1 => some .medium
  | 2 => some .low
  | _ => none

/-- The code of a repeatability (30_encoding.md R93). -/
def repCode : Rep → BitVec 2
  | .high => 0#2
  | .medium => 1#2
  | .low => 2#2

/-- `opc`, bits 7:5 of an operation word (30_encoding.md R91). -/
def opcField (w : Byte) : BitVec 3 := w.extractLsb' 5 3

/-- `rate`, bits 4:2 of an operation word (30_encoding.md R91). -/
def rateField (w : Byte) : BitVec 3 := w.extractLsb' 2 3

/-- `rep`, bits 1:0 of an operation word (30_encoding.md R91). -/
def repField (w : Byte) : BitVec 2 := w.extractLsb' 0 2

/-- MEAS at a repeatability. -/
def measInstr : Rep → Instr
  | .high => .measH
  | .medium => .measM
  | .low => .measL

/-- The instruction an operation word stands for (30_encoding.md R91 to R95); a word that encodes no operation is (illegal). A word of PSTART's
form decodes to PSTART in every configuration; its meaning refuses it where R95 calls it illegal (log 15). -/
def decodeOp (w : Byte) : Instr :=
  match (opcField w).toNat with
  | 1 => if rateField w = 0#3 ∧ repField w = 0#2 then .init else .illegal w
  | 2 => if rateField w = 0#3 ∧ repField w = 0#2 then .rdsn else .illegal w
  | 3 =>
    if rateField w = 0#3 then
      match repOfCode (repField w) with
      | some rep => measInstr rep
      | none => .illegal w
    else .illegal w
  | 4 =>
    match repOfCode (repField w) with
    | some rep => .pstart (rateField w) rep
    | none => .illegal w
  | _ => .illegal w

/-- `ADDRB_W` and `ADDRB_R`: bits 7:1 are the device address, bit 0 is the direction, 0 write and 1 read (30_encoding.md R96). PRESUMED: the
bit layout is the spec's general knowledge (log 2). -/
def addrByteW (a : Addr7) : Byte := a ++ 0#1
def addrByteR (a : Addr7) : Byte := a ++ 1#1

/-- The address byte a word stands for (30_encoding.md R96). -/
def decodeAddrb (w : Byte) : Instr :=
  if w.extractLsb' 0 1 = 0#1 then .addrbW (w.extractLsb' 1 7) else .addrbR (w.extractLsb' 1 7)

/-- One entry of a `PerRep`. -/
def PerRep.at (p : PerRep) : Rep → W16
  | .high => p.high
  | .medium => p.medium
  | .low => p.low

/-- One entry of a `PerRate`. -/
def PerRate.at (p : PerRate) (rate : BitVec 3) : W16 :=
  match rate.toNat with
  | 0 => p.r0
  | 1 => p.r1
  | 2 => p.r2
  | 3 => p.r3
  | 4 => p.r4
  | 5 => p.r5
  | 6 => p.r6
  | _ => p.r7

/-- The 16-bit word of a command, the table of 30_encoding.md R98 as the configuration fills it. -/
def commandWord (c : Config) : Command → W16
  | .softReset => c.cmdSoftReset
  | .readSerial => c.cmdReadSerial
  | .ssStretch rep => c.cmdSsStretch.at rep
  | .ssNostretch rep => c.cmdSsNostretch.at rep
  | .periodic .high rate => c.cmdPeriodicHigh.at rate
  | .periodic .medium rate => c.cmdPeriodicMedium.at rate
  | .periodic .low rate => c.cmdPeriodicLow.at rate
  | .fetch => c.cmdFetch

/-- The wire form of a 16-bit word: most significant byte first (30_encoding.md R97). -/
def wordHigh (w : W16) : Byte := w.extractLsb' 8 8
def wordLow (w : W16) : Byte := w.extractLsb' 0 8

/-- The row of the table that stands for a command, or SEND_CMD of it for a periodic start with a rate index of no row (30_encoding.md R98). -/
def Command.toInstr : Command → Instr
  | .softReset => .cmdSoftReset
  | .readSerial => .cmdReadSerial
  | .ssStretch .high => .cmdSsStretchH
  | .ssStretch .medium => .cmdSsStretchM
  | .ssStretch .low => .cmdSsStretchL
  | .ssNostretch .high => .cmdSsNostretchH
  | .ssNostretch .medium => .cmdSsNostretchM
  | .ssNostretch .low => .cmdSsNostretchL
  | .fetch => .cmdFetch
  | .periodic rep rate =>
    match rep, rate.toNat with
    | .high, 0 => .cmdPeriodicH0
    | .medium, 0 => .cmdPeriodicM0
    | .low, 0 => .cmdPeriodicL0
    | .high, 1 => .cmdPeriodicH1
    | .medium, 1 => .cmdPeriodicM1
    | .low, 1 => .cmdPeriodicL1
    | .high, 2 => .cmdPeriodicH2
    | .medium, 2 => .cmdPeriodicM2
    | .low, 2 => .cmdPeriodicL2
    | .high, 3 => .cmdPeriodicH3
    | .medium, 3 => .cmdPeriodicM3
    | .low, 3 => .cmdPeriodicL3
    | .high, 4 => .cmdPeriodicH4
    | .medium, 4 => .cmdPeriodicM4
    | .low, 4 => .cmdPeriodicL4
    | _, _ => .sendCmd (.periodic rep rate)

/-- The command a row of format CMD16 stands for (30_encoding.md R98). -/
def Instr.command : Instr → Option Command
  | .cmdSoftReset => some .softReset
  | .cmdReadSerial => some .readSerial
  | .cmdSsStretchH => some (.ssStretch .high)
  | .cmdSsStretchM => some (.ssStretch .medium)
  | .cmdSsStretchL => some (.ssStretch .low)
  | .cmdSsNostretchH => some (.ssNostretch .high)
  | .cmdSsNostretchM => some (.ssNostretch .medium)
  | .cmdSsNostretchL => some (.ssNostretch .low)
  | .cmdPeriodicH0 => some (.periodic .high 0)
  | .cmdPeriodicM0 => some (.periodic .medium 0)
  | .cmdPeriodicL0 => some (.periodic .low 0)
  | .cmdPeriodicH1 => some (.periodic .high 1)
  | .cmdPeriodicM1 => some (.periodic .medium 1)
  | .cmdPeriodicL1 => some (.periodic .low 1)
  | .cmdPeriodicH2 => some (.periodic .high 2)
  | .cmdPeriodicM2 => some (.periodic .medium 2)
  | .cmdPeriodicL2 => some (.periodic .low 2)
  | .cmdPeriodicH3 => some (.periodic .high 3)
  | .cmdPeriodicM3 => some (.periodic .medium 3)
  | .cmdPeriodicL3 => some (.periodic .low 3)
  | .cmdPeriodicH4 => some (.periodic .high 4)
  | .cmdPeriodicM4 => some (.periodic .medium 4)
  | .cmdPeriodicL4 => some (.periodic .low 4)
  | .cmdFetch => some .fetch
  | .init | .rdsn | .measH | .measM | .measL | .pstart _ _ | .illegal _ | .wait | .write _ _ | .read _ _ | .sendCmd _ => none
  | .readReply _ | .delay _ | .crc8 _ _ _ | .checkGroup _ _ _ | .checkFrame | .convT _ | .convRh _ | .tOk _ | .hOk _ => none
  | .decodeMeas | .decodeSerialRaw4 | .decodeSerialChecked6 | .addrbW _ | .addrbR _ => none

/-- The rows of the table's command words, in the table's order. -/
def tableCommands : List Command :=
  [.softReset, .readSerial, .ssStretch .high, .ssStretch .medium, .ssStretch .low, .ssNostretch .high, .ssNostretch .medium, .ssNostretch .low] ++
    [0#3, 1#3, 2#3, 3#3, 4#3].flatMap (fun rate => [.periodic .high rate, .periodic .medium rate, .periodic .low rate]) ++ [.fetch]

/-- The command a word stands for under a configuration: the first of the table's rows that has this word (30_encoding.md R98). -/
def decodeCommand (c : Config) (w : W16) : Option Command :=
  tableCommands.find? (fun cmd => commandWord c cmd == w)

/-- Why bytes decode to no instruction. -/
inductive DecodeRejection where
  /-- The format has another length (30_encoding.md R90, R108). -/
  | wrongLength
  /-- A 16-bit word that is no command of the closed enumeration (30_encoding.md R98). -/
  | noSuchCommand
  /-- WAIT and the sub-operations have no encoding (spec/opcode_table.json). -/
  | noEncoding
deriving DecidableEq, Repr

/-- The decoder: the instruction that the bytes of a format stand for, total and rejecting by name. Command words are read with the default
table of 30_encoding.md R98. -/
def decode : Format → List Byte → Except DecodeRejection Instr
  | .opw, [w] => .ok (decodeOp w)
  | .addrb, [w] => .ok (decodeAddrb w)
  | .cmd16, [hi, lo] =>
    match decodeCommand Config.default (hi ++ lo) with
    | some cmd => .ok cmd.toInstr
    | none => .error .noSuchCommand
  | .none, _ => .error .noEncoding
  | .opw, _ | .addrb, _ | .cmd16, _ => .error .wrongLength

/-- An operation word from its fields (30_encoding.md R91). -/
def opWord (opc rate : BitVec 3) (rep : BitVec 2) : Byte := opc ++ rate ++ rep

/-- The two bytes of a command on the wire (30_encoding.md R97, R109). -/
def commandBytes (c : Config) (cmd : Command) : List Byte :=
  [wordHigh (commandWord c cmd), wordLow (commandWord c cmd)]

/-- The encoder: the bytes of an instruction, in the order the format sends them; empty for a row without an encoding (30_encoding.md R91 to R98). -/
def encode : Instr → List Byte
  | .init => [opWord 1#3 0#3 0#2]
  | .rdsn => [opWord 2#3 0#3 0#2]
  | .measH => [opWord 3#3 0#3 (repCode .high)]
  | .measM => [opWord 3#3 0#3 (repCode .medium)]
  | .measL => [opWord 3#3 0#3 (repCode .low)]
  | .pstart rate rep => [opWord 4#3 rate (repCode rep)]
  | .illegal w => [w]
  | .addrbW a => [addrByteW a]
  | .addrbR a => [addrByteR a]
  | .cmdSoftReset => commandBytes Config.default .softReset
  | .cmdReadSerial => commandBytes Config.default .readSerial
  | .cmdSsStretchH => commandBytes Config.default (.ssStretch .high)
  | .cmdSsStretchM => commandBytes Config.default (.ssStretch .medium)
  | .cmdSsStretchL => commandBytes Config.default (.ssStretch .low)
  | .cmdSsNostretchH => commandBytes Config.default (.ssNostretch .high)
  | .cmdSsNostretchM => commandBytes Config.default (.ssNostretch .medium)
  | .cmdSsNostretchL => commandBytes Config.default (.ssNostretch .low)
  | .cmdPeriodicH0 => commandBytes Config.default (.periodic .high 0)
  | .cmdPeriodicM0 => commandBytes Config.default (.periodic .medium 0)
  | .cmdPeriodicL0 => commandBytes Config.default (.periodic .low 0)
  | .cmdPeriodicH1 => commandBytes Config.default (.periodic .high 1)
  | .cmdPeriodicM1 => commandBytes Config.default (.periodic .medium 1)
  | .cmdPeriodicL1 => commandBytes Config.default (.periodic .low 1)
  | .cmdPeriodicH2 => commandBytes Config.default (.periodic .high 2)
  | .cmdPeriodicM2 => commandBytes Config.default (.periodic .medium 2)
  | .cmdPeriodicL2 => commandBytes Config.default (.periodic .low 2)
  | .cmdPeriodicH3 => commandBytes Config.default (.periodic .high 3)
  | .cmdPeriodicM3 => commandBytes Config.default (.periodic .medium 3)
  | .cmdPeriodicL3 => commandBytes Config.default (.periodic .low 3)
  | .cmdPeriodicH4 => commandBytes Config.default (.periodic .high 4)
  | .cmdPeriodicM4 => commandBytes Config.default (.periodic .medium 4)
  | .cmdPeriodicL4 => commandBytes Config.default (.periodic .low 4)
  | .cmdFetch => commandBytes Config.default .fetch
  | .wait | .write _ _ | .read _ _ | .sendCmd _ | .readReply _ | .delay _ | .crc8 _ _ _ | .checkGroup _ _ _ | .checkFrame => []
  | .convT _ | .convRh _ | .tOk _ | .hOk _ | .decodeMeas | .decodeSerialRaw4 | .decodeSerialChecked6 => []

/-- The instruction of a table word. A word of 8 bits is read as an operation word, and as an address byte where it has no operation's form: the
table gives both formats 8 bits, and the block reads each in its own place (log 16). A word of 16 bits is a command word, its high byte first on
the wire. -/
def decodeTableWord (nbits w : Nat) : Option Instr :=
  match nbits with
  | 8 =>
    match decodeOp (BitVec.ofNat 8 w) with
    | .illegal v => some (decodeAddrb v)
    | i => some i
  | 16 => (decode .cmd16 [wordHigh (BitVec.ofNat 16 w), wordLow (BitVec.ofNat 16 w)]).toOption
  | _ => none

end Sys2Proof
end

