-- ==== Sys2Proof/Machine/State.lean ====
section
/-! DEFINITION. The state of the machine as plain data: the nine host registers, the hidden sequencer state, the bus trace, and the inputs of
the other agents (10_state.md R20; INVENTORY.md lists every field with its rule and reset value). -/

namespace Sys2Proof.Machine

/-- The result codes of `ERR` (60_exceptions.md R260). -/
inductive ErrCode where
  | ok
  | busError
  | checksumMismatch
  | invalidResponse
  | implausibleReading
  | illegalOp
deriving DecidableEq, Repr, Inhabited

/-- The session's mode (10_state.md R25). -/
inductive Mode where
  | uninitialized
  | idle
  | periodicMeasuring
deriving DecidableEq, Repr, Inhabited

/-- `PHASE`, the block's program counter (10_state.md R30). -/
inductive Phase where
  | idle
  | cfg
  | write
  | settle
  | read
  | decode
deriving DecidableEq, Repr, Inhabited

/-- `LOP`, the latched operation (10_state.md R31). -/
structure Lop where
  opc : BitVec 3
  rate : BitVec 3
  rep : BitVec 2
deriving DecidableEq, Repr, Inhabited

/-- `TXBUF[0..1]` (10_state.md R32). -/
structure TxBuf where
  b0 : Byte
  b1 : Byte
deriving DecidableEq, Repr, Inhabited

/-- `RXBUF[0..5]` (10_state.md R33). -/
structure RxBuf where
  b0 : Byte
  b1 : Byte
  b2 : Byte
  b3 : Byte
  b4 : Byte
  b5 : Byte
deriving DecidableEq, Repr, Inhabited

/-- The symbols of the bus trace (40_bus_transport.md R131; 30_encoding.md R107). -/
inductive BusSym where
  /-- `S`. -/
  | start
  /-- `W(b)/a`. -/
  | sent (b : Byte) (a : Ack)
  /-- `R(v)/A`. -/
  | receivedAck (v : Byte)
  /-- `R(v)/N`. -/
  | receivedNack (v : Byte)
  /-- `R/TIMEOUT`. -/
  | receiveTimeout
  /-- `P`. -/
  | stop
  /-- `X`. -/
  | abort
deriving DecidableEq, Repr, Inhabited

/-- The position inside a transaction: what "the last emitted symbol" of 10_state.md R30 says (log 9). -/
inductive BusPos where
  /-- No transaction is open: nothing emitted yet, or the last symbol is `P` or `X`. -/
  | closed
  /-- SEND_CMD has filled `TXBUF`; the WRITE's `S` is next (log 30). -/
  | loaded
  /-- The last symbol is `S`; the address byte is next. -/
  | opened
  /-- In a WRITE, the address byte and `i` payload bytes are acknowledged. -/
  | payload (i : Nat)
  /-- In a READ, the address byte is acknowledged; the next byte goes to `RXBUF[IDX]`. -/
  | reading
  /-- The last answer `a` was no `ACK`; the symbol that ends the transaction is next (40_bus_transport.md R135). -/
  | failing (a : Ack)
deriving DecidableEq, Repr, Inhabited

/-- What a sub-operation returned: the pseudocode's `return` value (log 8). In a run of the block only the outcome of a transaction, `ok` or
`busError`, stands here, until the step that follows; the other values are those of a sub-operation's row run on its own. -/
inductive SubResult where
  | none
  | ok
  | busError
  | u8 (v : Byte)
  | bool (b : Bool)
  | s16 (v : W16)
  | u16 (v : W16)
  /-- `OK(t, h, rawT, rawH)` of DECODE_MEAS. -/
  | meas (t h rawT rawH : W16)
  /-- `OK(sn)` of DECODE_SERIAL. -/
  | serial (sn : W32)
deriving DecidableEq, Repr, Inhabited

/-- The value a `HostRead` returns, at the width of the register (10_state.md R21). -/
inductive HostVal where
  | b8 (v : Byte)
  | b16 (v : W16)
  | b32 (v : W32)
deriving DecidableEq, Repr, Inhabited

/-- A move of one of the agents (00_scope.md R9; 70_reset_and_hazards.md R305). -/
inductive Move where
  /-- `HostRead(n)`. -/
  | hostRead (n : Nat)
  /-- `HostWrite(n, v)`. -/
  | hostWrite (n : Nat) (v : W32)
  /-- The host's pseudo-operation WAIT (30_encoding.md R106). -/
  | wait
  /-- A millisecond tick (60_exceptions.md R272). -/
  | tick
  /-- The block's reset input (70_reset_and_hazards.md R290). -/
  | rst
  /-- The sequencer takes one step: a phase transition or a bus symbol. -/
  | seq
  /-- The sequencer runs the sub-operation at which it stands as one step (40_bus_transport.md R141; log 10). -/
  | sub
deriving DecidableEq, Repr, Inhabited

/-- The state. Fields above `pos` are the spec's registers; `pos` and `trace` are the spec's "last emitted symbol" and bus trace; the rest is
the model's own (INVENTORY.md). -/
structure State where
  /-- The parameters of 00_scope.md R6; no step changes them (20_memory.md R71; log 1). -/
  cfg : Config
  /-- `STATUS.BUSY`, `DONE`, `MVALID`, `SNVALID` (10_state.md R23). -/
  busy : Bool
  done : Bool
  mvalid : Bool
  snvalid : Bool
  /-- `ERR` (R24). -/
  err : ErrCode
  /-- `MODE` (R25). -/
  mode : Mode
  /-- `TEMP`, two's complement (R26). -/
  temp : W16
  /-- `HUM` (R27). -/
  hum : W16
  /-- `RAWT`, `RAWH` (R28). -/
  rawt : W16
  rawh : W16
  /-- `SERIAL` (R29). -/
  serial : W32
  /-- `PHASE` (R30). -/
  phase : Phase
  /-- `LOP` (R31). -/
  lop : Lop
  /-- `TXBUF` (R32). -/
  txbuf : TxBuf
  /-- `RXBUF`, `LEN`, `IDX` (R33). -/
  rxbuf : RxBuf
  len : Nat
  idx : Nat
  /-- `DLY` (R34). -/
  dly : Nat
  /-- `TMO` (R35). -/
  tmo : Nat
  /-- `SCL_OUT`, `SDA_OUT` (R36). -/
  sclOut : Line
  sdaOut : Line
  /-- The position inside the transaction (R30). -/
  pos : BusPos
  /-- The bus trace, oldest symbol first (40_bus_transport.md R131). -/
  trace : List BusSym
  /-- What the last sub-operation returned (log 8). -/
  ret : SubResult
  /-- The agents' moves still to come, the next first (log 7). -/
  inputs : List Move
  /-- The peer's answers still to come, the next first (40_bus_transport.md R132; log 6). -/
  acks : List Ack
  bytes : List PeerByte
  /-- How many free values have been drawn (log 4). -/
  fresh : Nat
  /-- What the host has read, oldest first: register number and value (00_scope.md R10). -/
  reads : List (Nat × HostVal)
deriving DecidableEq, Repr

/-- The machine right after reset (10_state.md R38; 70_reset_and_hazards.md R291). The values of `LOP`, `TXBUF`, `RXBUF`, `LEN` and `IDX`, which the
spec leaves without a value, are DESIGN CHOICE zero (log 3); the fields below `trace` are the model's own (logs 4, 6, 7, 8, 13). -/
def State.reset : State where
  cfg := Config.default
  busy := false
  done := false
  mvalid := false
  snvalid := false
  err := .ok
  mode := .uninitialized
  temp := 0#16
  hum := 0#16
  rawt := 0#16
  rawh := 0#16
  serial := 0#32
  phase := .idle
  lop := ⟨0#3, 0#3, 0#2⟩
  txbuf := ⟨0#8, 0#8⟩
  rxbuf := ⟨0#8, 0#8, 0#8, 0#8, 0#8, 0#8⟩
  len := 0
  idx := 0
  dly := 0
  tmo := 0
  sclOut := .released
  sdaOut := .released
  pos := .closed
  trace := []
  ret := .none
  inputs := []
  acks := []
  bytes := []
  fresh := 0
  reads := []

/-- Why the machine stops with a fault. The block's own errors are no faults: they are taken by `abort` and are next states. -/
inductive Fault where
  /-- Raised by the sequencer where its phase, latched operation, bus position and returned value stand on no path of 44_session_ops.md R240, so
  that the spec gives no next step. Safe: the machine stops, and no state that a run reaches stands there (log 19). -/
  | offPath
deriving DecidableEq, Repr

/-- Why a step is refused. -/
inductive Refusal where
  /-- An instruction without a meaning yet. Safe. -/
  | notModelled (mnemonic : String)
  /-- Raised by a host access to a register number above 8: "no such register; refused by the model" (70_reset_and_hazards.md R305). Safe. -/
  | noSuchRegister (n : Nat)
  /-- Raised by WRITE of a number of bytes other than 2, and by READ and READ_REPLY of a number other than 4 and 6: "other lengths refused by the
  model" (20_memory.md R64, 92_eei_decisions.md D32; 40_bus_transport.md R133, R134; log 18). Safe. -/
  | badLength (n : Nat)
deriving DecidableEq, Repr

end Sys2Proof.Machine
end

