-- ==== Sys2Proof/Machine/Operands.lean ====
section
/-! DEFINITION. Operand forms: the latched operation and what it selects, access to the buffers, assembly of words from reply bytes. -/

namespace Sys2Proof.Machine

/-- The latch of an operation: the fields of its operation word (44_session_ops.md R231, 30_encoding.md R92). -/
def latchOf : HostOp → Lop
  | .init => ⟨1#3, 0#3, 0#2⟩
  | .rdsn => ⟨2#3, 0#3, 0#2⟩
  | .meas rep => ⟨3#3, 0#3, repCode rep⟩
  | .pstart rate rep => ⟨4#3, rate, repCode rep⟩

/-- The operation a latch holds, none where it holds no operation (10_state.md R31: "after reset ... it holds no value"). -/
def latched (l : Lop) : Option HostOp :=
  match l.opc.toNat with
  | 1 => some .init
  | 2 => some .rdsn
  | 3 => (repOfCode l.rep).map .meas
  | 4 => (repOfCode l.rep).map (.pstart l.rate)
  | _ => none

/-- The command an operation sends (44_session_ops.md R233 to R236). -/
def commandOf : HostOp → Command
  | .init => .softReset
  | .rdsn => .readSerial
  | .meas rep => .ssStretch rep
  | .pstart rate rep => .periodic rep rate

/-- The first phase of an operation's path (44_session_ops.md R240). -/
def firstPhase : HostOp → Phase
  | .init => .cfg
  | .rdsn | .meas _ | .pstart _ _ => .write

/-- How many bytes the operation's reply has, none where it reads no reply (30_encoding.md R100, R101; 44_session_ops.md R234, R235). -/
def replyLength (c : Config) : HostOp → Option Nat
  | .rdsn => some (match c.serialMode with | .raw4 => 4 | .checked6 => 6)
  | .meas _ => some 6
  | .init | .pstart _ _ => none

/-- `TXBUF` filled with a word, most significant byte first (41_command_protocol.md R160). -/
def txOf (w : W16) : TxBuf := ⟨wordHigh w, wordLow w⟩

/-- The word `TXBUF` holds. -/
def txWord (t : TxBuf) : W16 := t.b0 ++ t.b1

/-- `RXBUF[i] <- v`; there is no byte above index 5 (10_state.md R33). -/
def rxSet (r : RxBuf) (i : Nat) (v : Byte) : RxBuf :=
  match i with
  | 0 => { r with b0 := v }
  | 1 => { r with b1 := v }
  | 2 => { r with b2 := v }
  | 3 => { r with b3 := v }
  | 4 => { r with b4 := v }
  | 5 => { r with b5 := v }
  | _ => r

/-- `RXBUF[i]`, none above index 5 (10_state.md R33). -/
def rxGet (r : RxBuf) (i : Nat) : Option Byte :=
  match i with
  | 0 => some r.b0
  | 1 => some r.b1
  | 2 => some r.b2
  | 3 => some r.b3
  | 4 => some r.b4
  | 5 => some r.b5
  | _ => none

/-- The raw word of a group's two data bytes (30_encoding.md R99, R102). -/
def rawWord (d0 d1 : Byte) : W16 := d0 ++ d1

/-- `rawT` and `rawH` of a measurement reply (30_encoding.md R102). -/
def rawTOf (r : RxBuf) : W16 := rawWord r.b0 r.b1
def rawHOf (r : RxBuf) : W16 := rawWord r.b3 r.b4

/-- The serial number composed from bytes 0 to 3, and from bytes 0, 1, 3, 4 (30_encoding.md R102). -/
def serialRaw4Of (r : RxBuf) : W32 := r.b0 ++ r.b1 ++ r.b2 ++ r.b3
def serialChecked6Of (r : RxBuf) : W32 := r.b0 ++ r.b1 ++ r.b3 ++ r.b4

/-- A transaction is open on the bus: its `S` is emitted and its `P` or `X` is not (00_scope.md R12). -/
def isOpen : BusPos → Bool
  | .closed | .loaded => false
  | .opened | .payload _ | .reading | .failing _ => true

end Sys2Proof.Machine
end

