-- ==== Sys2Proof/Machine/Flags.lean ====
section
/-! DEFINITION. The block's only flags, the four bits of `STATUS` (10_state.md R23, R40), the codes of `ERR` and `MODE`, and what an operation's
start clears. -/

namespace Sys2Proof.Machine

/-- `STATUS` as the host reads it: bit 0 `BUSY`, 1 `DONE`, 2 `MVALID`, 3 `SNVALID`, bits 7:4 read as 0 (10_state.md R23). -/
def statusWord (s : State) : Byte :=
  0#4 ++ BitVec.ofBool s.snvalid ++ BitVec.ofBool s.mvalid ++ BitVec.ofBool s.done ++ BitVec.ofBool s.busy

/-- The codes of `ERR` (60_exceptions.md R260). -/
def errCode : ErrCode → Byte
  | .ok => 0#8
  | .busError => 1#8
  | .checksumMismatch => 2#8
  | .invalidResponse => 3#8
  | .implausibleReading => 4#8
  | .illegalOp => 5#8

/-- The codes of `MODE` (10_state.md R25). -/
def modeCode : Mode → Byte
  | .uninitialized => 0#8
  | .idle => 1#8
  | .periodicMeasuring => 2#8

/-- The level output `done` (60_exceptions.md R269). -/
def doneOut (s : State) : Bool := s.done

/-- What the start step clears of the operation's own: MEAS its four registers and `MVALID`, RDSN `SERIAL` and `SNVALID`; INIT sets `MODE` to
`Uninitialized` (44_session_ops.md R231). -/
def clearOwn (op : HostOp) (s : State) : State :=
  match op with
  | .init => { s with mode := .uninitialized }
  | .rdsn => { s with snvalid := false, serial := 0#32 }
  | .meas _ => { s with mvalid := false, temp := 0#16, hum := 0#16, rawt := 0#16, rawh := 0#16 }
  | .pstart _ _ => s

end Sys2Proof.Machine
end

