-- ==== Sys2Proof/Machine/Ops.lean ====
section
/-! DEFINITION. The named operations every meaning is written over: the bus symbols and the lines, the questions to the peer, `RXBUF`, the start
step, `complete`, and the abort that takes an error. -/

namespace Sys2Proof.Machine

/-- `emit s` (00_scope.md R8): append a symbol to the bus trace. -/
def emit (x : BusSym) (s : State) : State := { s with trace := s.trace ++ [x] }

/-- Both lines `released` (10_state.md R36). -/
def release (s : State) : State := { s with sclOut := .released, sdaOut := .released }

/-- The lines while a transaction is open: the spec states no value for them, so they are free values (10_state.md R36; log 5). -/
def drive (s : State) : State :=
  { s with sclOut := Config.freeLine s.fresh, sdaOut := Config.freeLine (s.fresh + 1), fresh := s.fresh + 2 }

/-- The content of `RXBUF` once discarded: it "holds no value", so its bytes are free values (10_state.md R33; log 4). -/
def freeRx (k : Nat) : RxBuf :=
  ⟨Config.freeByte k, Config.freeByte (k + 1), Config.freeByte (k + 2), Config.freeByte (k + 3), Config.freeByte (k + 4), Config.freeByte (k + 5)⟩

/-- Discard `RXBUF` (10_state.md R33). -/
def discardRx (s : State) : State := { s with rxbuf := freeRx s.fresh, fresh := s.fresh + 6 }

/-- What a sub-operation returns to its caller (log 8). -/
def returning (r : SubResult) (s : State) : State := { s with ret := r }

/-- `peer_ack()`: the peer's answer in the acknowledge slot. `TMO` at 0 makes it `TIMEOUT` (40_bus_transport.md R132, R136; logs 6, 14). -/
def ackAnswer (s : State) : Ack :=
  if s.tmo = 0 then .timeout else
    match s.acks with
    | a :: _ => a
    | [] => Config.freeAck s.fresh

/-- `peer_byte()`: the peer's answer to a byte clocked in (40_bus_transport.md R132, R136; logs 6, 14). -/
def byteAnswer (s : State) : PeerByte :=
  if s.tmo = 0 then .timeout else
    match s.bytes with
    | b :: _ => b
    | [] => Config.freePeerByte s.fresh

/-- The state once the peer has answered an acknowledge slot. -/
def ackTaken (s : State) : State := { s with acks := if s.tmo = 0 then s.acks else s.acks.tail, fresh := s.fresh + 1 }

/-- The state once the peer has answered a byte. -/
def byteTaken (s : State) : State := { s with bytes := if s.tmo = 0 then s.bytes else s.bytes.tail, fresh := s.fresh + 1 }

/-- Begin a transaction: load `TMO`, emit `S` (40_bus_transport.md R133, R134). -/
def busStart (s : State) : State := { drive (emit .start s) with tmo := Config.busTimeoutMs, pos := .opened }

/-- Send byte `b` and record the peer's answer `W(b)/a`; the answer itself is `ackAnswer s`. -/
def sendByte (b : Byte) (s : State) : State := drive (emit (.sent b (ackAnswer s)) (ackTaken s))

/-- Receive byte `v` into `RXBUF[IDX]`, acknowledged unless it is the last (40_bus_transport.md R134). -/
def receiveByte (v : Byte) (s : State) : State :=
  let t := drive (emit (if s.idx + 1 = s.len then .receivedNack v else .receivedAck v) (byteTaken s))
  { t with rxbuf := rxSet s.rxbuf s.idx v, idx := s.idx + 1 }

/-- The byte did not arrive: `R/TIMEOUT` (40_bus_transport.md R134). -/
def receiveTimeout (s : State) : State := drive (emit .receiveTimeout (byteTaken s))

/-- End a transaction with `P`: the lines are released (10_state.md R36). -/
def busStop (s : State) : State := { release (emit .stop s) with pos := .closed }

/-- Give a transaction up with `X`: the lines are released (40_bus_transport.md R131, R135). -/
def busAbort (s : State) : State := { release (emit .abort s) with pos := .closed }

/-- `fail(a)`: `P` after a `NACK`, `X` after a `TIMEOUT`; an `ACK` is no failure (40_bus_transport.md R133, R135). -/
def endFailed (a : Ack) (s : State) : State :=
  match a with
  | .ack => s
  | .nack => busStop s
  | .timeout => busAbort s

/-- `complete(code)`, the end of an operation (44_session_ops.md R232). -/
def complete (code : ErrCode) (s : State) : State :=
  { s with
    err := code, busy := false, done := true, phase := .idle, dly := 0, tmo := 0,
    sclOut := .released, sdaOut := .released, pos := .closed, ret := .none }

/-- `raise E`, the block's trap entry: TAKING AN EXCEPTION. The running operation ends at once, `RXBUF` is discarded, `complete(code(E))` runs; no
register is saved, no mode or mask changes, and control goes to no handler (60_exceptions.md R266). -/
def abort (code : ErrCode) (s : State) : State := complete code (discardRx s)

/-- The first failing test is the error reported, and the operation is aborted with it (60_exceptions.md R265, R266); with no failing test, go on. -/
def unlessError (e : Option ErrCode) (goOn : State → State) (s : State) : State :=
  match e with
  | some code => abort code s
  | none => goOn s

/-- THE RETURN from an exception: there is no return instruction; the host "clears the error by starting any operation", whose start step sets `ERR`
to 0 and `DONE` to 0 (60_exceptions.md R267, 44_session_ops.md R231). -/
def clearEnded (s : State) : State := { s with done := false, err := .ok }

/-- Whether the start step begins the operation: PSTART needs `HAS_PERIODIC_START`, `rate < N_RATES` (30_encoding.md R95) and a mode other than
`Uninitialized` (44_session_ops.md R236); no other operation is refused on account of the mode (R239). -/
def admitted (op : HostOp) (s : State) : Bool :=
  match op with
  | .init | .rdsn | .meas _ => true
  | .pstart rate _ => s.cfg.hasPeriodicStart && decide (rate.toNat < s.cfg.nRates) && decide (s.mode ≠ .uninitialized)

/-- The start step from `LOP <- ...` on (44_session_ops.md R231). -/
def beginOp (op : HostOp) (s : State) : State :=
  clearOwn op { discardRx s with lop := latchOf op, busy := true, phase := firstPhase op, pos := .closed, ret := .none }

/-- The refusal of an operation word in the start step (44_session_ops.md R231, R237): `complete(IllegalOp)`. -/
def refuseOp (s : State) : State := complete .illegalOp (clearEnded s)

/-- The start step of an operation (44_session_ops.md R231); a write while `BUSY` is ignored (10_state.md R22). -/
def startOp (op : HostOp) (s : State) : State :=
  if s.busy then s
  else if admitted op s then beginOp op (clearEnded s)
  else refuseOp s

/-- The move the agents make when the inputs name none: the Time agent's tick while the settle delay runs, else the sequencer's step (log 7). -/
def autoMove (s : State) : Move :=
  if s.phase = .settle ∧ 0 < s.dly then .tick else .seq

/-- What `HostRead(n)` returns, the whole register at its width; none above 8 (10_state.md R21, R22). -/
def readReg (s : State) (n : Nat) : Option HostVal :=
  match n with
  | 0 => some (.b8 0#8)
  | 1 => some (.b8 (statusWord s))
  | 2 => some (.b8 (errCode s.err))
  | 3 => some (.b8 (modeCode s.mode))
  | 4 => some (.b16 s.temp)
  | 5 => some (.b16 s.hum)
  | 6 => some (.b16 s.rawt)
  | 7 => some (.b16 s.rawh)
  | 8 => some (.b32 s.serial)
  | _ => none

/-- Record what the host has read; the block's state does not change (10_state.md R21; log 13). -/
def observe (n : Nat) (v : HostVal) (s : State) : State := { s with reads := s.reads ++ [(n, v)] }

end Sys2Proof.Machine
end

