-- ==== Sys2Proof/Machine/Transport.lean ====
section
/-! DEFINITION. The bus transport adapter: WRITE, READ and the address bytes that open them (40_bus_transport.md, 30_encoding.md R96). -/

namespace Sys2Proof.Machine

/-- Send bytes until one is not acknowledged; `P` and `OK` after the last, `fail(a)` and `BusError` at the first other answer
(40_bus_transport.md R133, R135). -/
def sendAll : List Byte → State → State
  | [], s => returning .ok (busStop s)
  | b :: rest, s =>
    match ackAnswer s with
    | .ack => sendAll rest (sendByte b s)
    | a => returning .busError (endFailed a (sendByte b s))

/-- The WRITE transaction, of any number of bytes (40_bus_transport.md R133). -/
def writeTransaction (addr : Addr7) (bytes : List Byte) (s : State) : State :=
  sendAll (addrByteW addr :: bytes) (busStart s)

/-- WRITE (40_bus_transport.md R133) of 2 bytes; "other lengths refused by the model" (20_memory.md R64, 92_eei_decisions.md D32; log 18). -/
def execWrite (addr : Addr7) (bytes : List Byte) (s : State) : Host.Outcome State Fault Refusal :=
  if bytes.length = 2 then .next (writeTransaction addr bytes s) else .refused (.badLength bytes.length)

/-- A failed READ: `RXBUF` is discarded and `BusError` returned (40_bus_transport.md R134). -/
def readFailed (s : State) : State := returning .busError (discardRx s)

/-- Clock in the `n` bytes still to come; `P` and `OK` after the last, `R/TIMEOUT X` and `BusError` at a timeout (40_bus_transport.md R134). -/
def receiveAll : Nat → State → State
  | 0, s => returning .ok (busStop s)
  | n + 1, s =>
    match byteAnswer s with
    | .byte v => receiveAll n (receiveByte v s)
    | .timeout => readFailed (busAbort (receiveTimeout s))

/-- The start of a READ: `TMO`, `LEN`, `IDX` and `S` (40_bus_transport.md R134). -/
def readStart (len : Nat) (s : State) : State := busStart { s with len := len, idx := 0 }

/-- The READ transaction, of 1 to 6 bytes (40_bus_transport.md R134). -/
def readTransaction (addr : Addr7) (len : Nat) (s : State) : State :=
  let t := readStart len s
  match ackAnswer t with
  | .ack => receiveAll len (sendByte (addrByteR addr) t)
  | a => readFailed (endFailed a (sendByte (addrByteR addr) t))

/-- READ (40_bus_transport.md R134) of 4 or 6 bytes; "other lengths refused by the model" (20_memory.md R64, 92_eei_decisions.md D32; log 18). -/
def execRead (addr : Addr7) (len : Nat) (s : State) : Host.Outcome State Fault Refusal :=
  if len = 4 ∨ len = 6 then .next (readTransaction addr len s) else .refused (.badLength len)

/-- ADDRB_W: the address byte of a WRITE goes out after `S` and the peer answers (40_bus_transport.md R133, 30_encoding.md R96). -/
def execAddrbW (addr : Addr7) (s : State) : Host.Outcome State Fault Refusal :=
  .next { sendByte (addrByteW addr) s with pos := match ackAnswer s with | .ack => .payload 0 | a => .failing a }

/-- ADDRB_R: the address byte of a READ goes out after `S` and the peer answers (40_bus_transport.md R134, 30_encoding.md R96). -/
def execAddrbR (addr : Addr7) (s : State) : Host.Outcome State Fault Refusal :=
  .next { sendByte (addrByteR addr) s with pos := match ackAnswer s with | .ack => .reading | a => .failing a }

end Sys2Proof.Machine
end

