-- ==== Sys2Proof/Machine/Protocol.lean ====
section
/-! DEFINITION. The command protocol layer: SEND_CMD, READ_REPLY, DELAY (41_command_protocol.md). -/

namespace Sys2Proof.Machine

/-- SEND_CMD's encode step: the command word goes to `TXBUF`, most significant byte first, and `PHASE <- P_WRITE` (41_command_protocol.md R160). -/
def loadCommand (cmd : Command) (s : State) : State :=
  { s with txbuf := txOf (commandWord s.cfg cmd), phase := .write }

/-- The WRITE of `TXBUF[0..1]` to `DEV_ADDR` (41_command_protocol.md R160). -/
def writeTx (s : State) : State := writeTransaction s.cfg.devAddr [s.txbuf.b0, s.txbuf.b1] s

/-- SEND_CMD of a command: encode it, then exactly one WRITE, whose outcome is returned verbatim (41_command_protocol.md R160, R164). -/
def sendCommand (cmd : Command) (s : State) : State := writeTx (loadCommand cmd s)

/-- SEND_CMD (41_command_protocol.md R160). DESIGN CHOICE: a periodic command with a rate index that is no index of 30_encoding.md R94, because it is
not below `N_RATES`, sends the word the configuration holds for it; no operation sends one (log 29). -/
def execSendCmd (cmd : Command) (s : State) : Host.Outcome State Fault Refusal := .next (sendCommand cmd s)

/-- READ_REPLY of 4 or 6 bytes (41_command_protocol.md R161): `PHASE <- P_READ`, then exactly one READ from `DEV_ADDR`, whose outcome is returned; the
lengths refused are READ's (92_eei_decisions.md D32; log 18). -/
def execReadReply (byteCount : Nat) (s : State) : Host.Outcome State Fault Refusal :=
  if byteCount = 4 ∨ byteCount = 6 then .next (readTransaction s.cfg.devAddr byteCount { s with phase := .read })
  else .refused (.badLength byteCount)

/-- Enter the settle delay: `PHASE <- P_SETTLE`, `DLY <- ms` (41_command_protocol.md R162). The waiting is then the Time agent's: each tick takes one
from `DLY`, and the sequencer leaves `P_SETTLE` only when `DLY` is 0. -/
def enterSettle (ms : Nat) (s : State) : State := { s with phase := .settle, dly := ms, ret := .none }

/-- DELAY (41_command_protocol.md R162). -/
def execDelay (ms : Nat) (s : State) : Host.Outcome State Fault Refusal := .next (enterSettle ms s)

end Sys2Proof.Machine
end

