-- ==== Sys2Proof/Machine/Commands.lean ====
section
/-! DEFINITION. The command words (30_encoding.md R97, R98): each row is SEND_CMD of that member of the enumeration. `CMD_SS_NOSTRETCH` and
`CMD_FETCH` are sent by no operation of the block (R98); as commands they are sent as every other. A CMD_PERIODIC row whose rate
index is not below `N_RATES` sends the word the configuration holds for it (DESIGN CHOICE, log 29). -/

namespace Sys2Proof.Machine

/-- CMD_SOFT_RESET: SEND_CMD of it (30_encoding.md R98, 41_command_protocol.md R160). -/
def execCmdSoftReset (s : State) : Host.Outcome State Fault Refusal := .next (sendCommand .softReset s)

/-- CMD_READ_SERIAL: SEND_CMD of it (30_encoding.md R98, 41_command_protocol.md R160). -/
def execCmdReadSerial (s : State) : Host.Outcome State Fault Refusal := .next (sendCommand .readSerial s)

/-- CMD_SS_STRETCH.H: SEND_CMD of it (30_encoding.md R98, 41_command_protocol.md R160). -/
def execCmdSsStretchH (s : State) : Host.Outcome State Fault Refusal := .next (sendCommand (.ssStretch .high) s)

/-- CMD_SS_STRETCH.M: SEND_CMD of it (30_encoding.md R98, 41_command_protocol.md R160). -/
def execCmdSsStretchM (s : State) : Host.Outcome State Fault Refusal := .next (sendCommand (.ssStretch .medium) s)

/-- CMD_SS_STRETCH.L: SEND_CMD of it (30_encoding.md R98, 41_command_protocol.md R160). -/
def execCmdSsStretchL (s : State) : Host.Outcome State Fault Refusal := .next (sendCommand (.ssStretch .low) s)

/-- CMD_SS_NOSTRETCH.H: SEND_CMD of it (30_encoding.md R98, 41_command_protocol.md R160). -/
def execCmdSsNostretchH (s : State) : Host.Outcome State Fault Refusal := .next (sendCommand (.ssNostretch .high) s)

/-- CMD_SS_NOSTRETCH.M: SEND_CMD of it (30_encoding.md R98, 41_command_protocol.md R160). -/
def execCmdSsNostretchM (s : State) : Host.Outcome State Fault Refusal := .next (sendCommand (.ssNostretch .medium) s)

/-- CMD_SS_NOSTRETCH.L: SEND_CMD of it (30_encoding.md R98, 41_command_protocol.md R160). -/
def execCmdSsNostretchL (s : State) : Host.Outcome State Fault Refusal := .next (sendCommand (.ssNostretch .low) s)

/-- CMD_PERIODIC.H.0: SEND_CMD of it (30_encoding.md R98, 41_command_protocol.md R160). -/
def execCmdPeriodicH0 (s : State) : Host.Outcome State Fault Refusal := .next (sendCommand (.periodic .high 0) s)

/-- CMD_PERIODIC.M.0: SEND_CMD of it (30_encoding.md R98, 41_command_protocol.md R160). -/
def execCmdPeriodicM0 (s : State) : Host.Outcome State Fault Refusal := .next (sendCommand (.periodic .medium 0) s)

/-- CMD_PERIODIC.L.0: SEND_CMD of it (30_encoding.md R98, 41_command_protocol.md R160). -/
def execCmdPeriodicL0 (s : State) : Host.Outcome State Fault Refusal := .next (sendCommand (.periodic .low 0) s)

/-- CMD_PERIODIC.H.1: SEND_CMD of it (30_encoding.md R98, 41_command_protocol.md R160). -/
def execCmdPeriodicH1 (s : State) : Host.Outcome State Fault Refusal := .next (sendCommand (.periodic .high 1) s)

/-- CMD_PERIODIC.M.1: SEND_CMD of it (30_encoding.md R98, 41_command_protocol.md R160). -/
def execCmdPeriodicM1 (s : State) : Host.Outcome State Fault Refusal := .next (sendCommand (.periodic .medium 1) s)

/-- CMD_PERIODIC.L.1: SEND_CMD of it (30_encoding.md R98, 41_command_protocol.md R160). -/
def execCmdPeriodicL1 (s : State) : Host.Outcome State Fault Refusal := .next (sendCommand (.periodic .low 1) s)

/-- CMD_PERIODIC.H.2: SEND_CMD of it (30_encoding.md R98, 41_command_protocol.md R160). -/
def execCmdPeriodicH2 (s : State) : Host.Outcome State Fault Refusal := .next (sendCommand (.periodic .high 2) s)

/-- CMD_PERIODIC.M.2: SEND_CMD of it (30_encoding.md R98, 41_command_protocol.md R160). -/
def execCmdPeriodicM2 (s : State) : Host.Outcome State Fault Refusal := .next (sendCommand (.periodic .medium 2) s)

/-- CMD_PERIODIC.L.2: SEND_CMD of it (30_encoding.md R98, 41_command_protocol.md R160). -/
def execCmdPeriodicL2 (s : State) : Host.Outcome State Fault Refusal := .next (sendCommand (.periodic .low 2) s)

/-- CMD_PERIODIC.H.3: SEND_CMD of it (30_encoding.md R98, 41_command_protocol.md R160). -/
def execCmdPeriodicH3 (s : State) : Host.Outcome State Fault Refusal := .next (sendCommand (.periodic .high 3) s)

/-- CMD_PERIODIC.M.3: SEND_CMD of it (30_encoding.md R98, 41_command_protocol.md R160). -/
def execCmdPeriodicM3 (s : State) : Host.Outcome State Fault Refusal := .next (sendCommand (.periodic .medium 3) s)

/-- CMD_PERIODIC.L.3: SEND_CMD of it (30_encoding.md R98, 41_command_protocol.md R160). -/
def execCmdPeriodicL3 (s : State) : Host.Outcome State Fault Refusal := .next (sendCommand (.periodic .low 3) s)

/-- CMD_PERIODIC.H.4: SEND_CMD of it (30_encoding.md R98, 41_command_protocol.md R160). -/
def execCmdPeriodicH4 (s : State) : Host.Outcome State Fault Refusal := .next (sendCommand (.periodic .high 4) s)

/-- CMD_PERIODIC.M.4: SEND_CMD of it (30_encoding.md R98, 41_command_protocol.md R160). -/
def execCmdPeriodicM4 (s : State) : Host.Outcome State Fault Refusal := .next (sendCommand (.periodic .medium 4) s)

/-- CMD_PERIODIC.L.4: SEND_CMD of it (30_encoding.md R98, 41_command_protocol.md R160). -/
def execCmdPeriodicL4 (s : State) : Host.Outcome State Fault Refusal := .next (sendCommand (.periodic .low 4) s)

/-- CMD_FETCH: SEND_CMD of it (30_encoding.md R98, 41_command_protocol.md R160). -/
def execCmdFetch (s : State) : Host.Outcome State Fault Refusal := .next (sendCommand .fetch s)

end Sys2Proof.Machine
end

