-- ==== Sys2Proof/Machine/Checksum.lean ====
section
/-! DEFINITION. The checksum validator: CRC8, CHECK_GROUP, CHECK_FRAME (42_checksum.md). -/

namespace Sys2Proof.Machine

/-- One round: shift left by one; exclusive-or 0x31 if the bit shifted out of bit 7 was 1 (42_checksum.md R180). -/
def crcRound (r : Byte) : Byte :=
  if r.msb then (r <<< 1) ^^^ Config.crcPolyLow else r <<< 1

/-- `n` rounds. -/
def crcRounds : Nat → Byte → Byte
  | 0, r => r
  | n + 1, r => crcRounds n (crcRound r)

/-- One byte into the remainder: exclusive-or, then eight rounds (42_checksum.md R180). -/
def crcByte (r b : Byte) : Byte := crcRounds 8 (r ^^^ b)

/-- `crc8(b0, b1, seed)`, `b0` first (42_checksum.md R180). -/
def crc8 (b0 b1 seed : Byte) : Byte := crcByte (crcByte seed b0) b1

/-- `CHECK_GROUP(d0, d1, c)` (42_checksum.md R182). -/
def groupOk (d0 d1 c : Byte) : Bool := crc8 d0 d1 Config.crcSeed == c

/-- Both groups of a six-byte reply pass (42_checksum.md R183). -/
def frameOk (r : RxBuf) : Bool := groupOk r.b0 r.b1 r.b2 && groupOk r.b3 r.b4 r.b5

/-- What CHECK_FRAME raises on a frame, if anything (42_checksum.md R183). -/
def frameError (r : RxBuf) : Option ErrCode := if frameOk r then none else some .checksumMismatch

/-- CRC8 (42_checksum.md R180): the remainder is a combinational value, returned and kept nowhere (10_state.md R37; log 8). -/
def execCrc8 (b0 b1 seed : Byte) (s : State) : Host.Outcome State Fault Refusal :=
  .next (returning (.u8 (crc8 b0 b1 seed)) s)

/-- CHECK_GROUP (42_checksum.md R182). -/
def execCheckGroup (d0 d1 c : Byte) (s : State) : Host.Outcome State Fault Refusal :=
  .next (returning (.bool (groupOk d0 d1 c)) s)

/-- CHECK_FRAME (42_checksum.md R183): `OK`, or `raise ChecksumMismatch`. -/
def execCheckFrame (s : State) : Host.Outcome State Fault Refusal :=
  .next (unlessError (frameError s.rxbuf) (returning .ok) s)

end Sys2Proof.Machine
end

