-- ==== Sys2Proof/Machine/Decoder.lean ====
section
/-! DEFINITION. The measurement decoder: CONV_T, CONV_RH, the bounds, DECODE_MEAS, DECODE_SERIAL (43_decoder.md). -/

namespace Sys2Proof.Machine

/-- `T_centi(rawT)`, hundredths of a degree (43_decoder.md R204). -/
def tCenti (rawT : W16) : Int := (((17500 * rawT.toNat + 32767) / 65535 : Nat) : Int) - 4500

/-- `H_centi(rawH)`, hundredths of a percent (43_decoder.md R205). -/
def hCenti (rawH : W16) : Nat := (10000 * rawH.toNat + 32767) / 65535

/-- `T_centi` as it is stored, s16 (43_decoder.md R204, 30_encoding.md R103). -/
def tWord (rawT : W16) : W16 := BitVec.ofInt 16 (tCenti rawT)

/-- `H_centi` as it is stored, u16 (43_decoder.md R205, 30_encoding.md R103). -/
def hWord (rawH : W16) : W16 := BitVec.ofNat 16 (hCenti rawH)

/-- `T_OK(rawT)` (43_decoder.md R207). -/
def tOk (rawT : W16) : Bool := decide (65535 ≤ 7 * rawT.toNat) && decide (35 * rawT.toNat ≤ 2228190)

/-- `H_OK(rawH)` (43_decoder.md R209), kept although it can never fail (92_eei_decisions.md D29). -/
def hOk (rawH : W16) : Bool := decide (0 ≤ 100 * rawH.toNat) && decide (100 * rawH.toNat ≤ 100 * 65535)

/-- CONV_T (43_decoder.md R204). -/
def execConvT (rawT : W16) (s : State) : Host.Outcome State Fault Refusal := .next (returning (.s16 (tWord rawT)) s)

/-- CONV_RH (43_decoder.md R205). -/
def execConvRh (rawH : W16) (s : State) : Host.Outcome State Fault Refusal := .next (returning (.u16 (hWord rawH)) s)

/-- T_OK (43_decoder.md R207). -/
def execTOk (rawT : W16) (s : State) : Host.Outcome State Fault Refusal := .next (returning (.bool (tOk rawT)) s)

/-- H_OK (43_decoder.md R209). -/
def execHOk (rawH : W16) (s : State) : Host.Outcome State Fault Refusal := .next (returning (.bool (hOk rawH)) s)

/-- What DECODE_MEAS raises on a frame, if anything (43_decoder.md R210). -/
def measError (r : RxBuf) : Option ErrCode := if tOk (rawTOf r) && hOk (rawHOf r) then none else some .implausibleReading

/-- DECODE_MEAS (43_decoder.md R210): `OK(t, h, rawT, rawH)`, or `raise ImplausibleReading`. -/
def execDecodeMeas (s : State) : Host.Outcome State Fault Refusal :=
  let rawT := rawTOf s.rxbuf
  let rawH := rawHOf s.rxbuf
  .next (unlessError (measError s.rxbuf) (returning (.meas (tWord rawT) (hWord rawH) rawT rawH)) s)

/-- The all-ones sentinel: what DECODE_SERIAL raises on a composed number, if anything (43_decoder.md R214). -/
def serialError (sn : W32) : Option ErrCode := if sn = 0xFFFFFFFF#32 then some .invalidResponse else none

/-- What DECODE_SERIAL_checked6 raises: the checksum is tested before the sentinel (43_decoder.md R213). -/
def checkedSerialError (r : RxBuf) : Option ErrCode := (frameError r).or (serialError (serialChecked6Of r))

/-- DECODE_SERIAL_raw4 (43_decoder.md R212). -/
def execDecodeSerialRaw4 (s : State) : Host.Outcome State Fault Refusal :=
  .next (unlessError (serialError (serialRaw4Of s.rxbuf)) (returning (.serial (serialRaw4Of s.rxbuf))) s)

/-- DECODE_SERIAL_checked6 (43_decoder.md R213). -/
def execDecodeSerialChecked6 (s : State) : Host.Outcome State Fault Refusal :=
  .next (unlessError (checkedSerialError s.rxbuf) (returning (.serial (serialChecked6Of s.rxbuf))) s)

end Sys2Proof.Machine
end

