-- ==== Sys2Proof/Machine/Session.lean ====
section
/-! DEFINITION. The sensor session: the start steps of the host operations, the refusal of an illegal word, the host's WAIT, and the completion of
each successful operation (44_session_ops.md). The steps between start and completion are the sequencer's (Machine/Sequencer.lean). -/

namespace Sys2Proof.Machine

/-- INIT (44_session_ops.md R231, R233). -/
def execInit (s : State) : Host.Outcome State Fault Refusal := .next (startOp .init s)

/-- RDSN (44_session_ops.md R231, R234). -/
def execRdsn (s : State) : Host.Outcome State Fault Refusal := .next (startOp .rdsn s)

/-- MEAS.H (44_session_ops.md R231, R235). -/
def execMeasH (s : State) : Host.Outcome State Fault Refusal := .next (startOp (.meas .high) s)

/-- MEAS.M (44_session_ops.md R231, R235). -/
def execMeasM (s : State) : Host.Outcome State Fault Refusal := .next (startOp (.meas .medium) s)

/-- MEAS.L (44_session_ops.md R231, R235). -/
def execMeasL (s : State) : Host.Outcome State Fault Refusal := .next (startOp (.meas .low) s)

/-- PSTART (44_session_ops.md R231, R236). -/
def execPstart (rate : BitVec 3) (rep : Rep) (s : State) : Host.Outcome State Fault Refusal := .next (startOp (.pstart rate rep) s)

/-- (illegal): refused with `IllegalOp` (44_session_ops.md R237); ignored while `BUSY` (10_state.md R22). The word itself changes nothing. -/
def execIllegal (_w : Byte) (s : State) : Host.Outcome State Fault Refusal := .next (if s.busy then s else refuseOp s)

/-- WAIT (30_encoding.md R106): one `HostRead(1)`; the host goes on if it read `DONE`, else the other agents move and the host polls again
(log 20). -/
def execWait (s : State) : Host.Outcome State Fault Refusal :=
  let t := observe 1 (.b8 (statusWord s)) s
  .next (if s.done then t else { t with inputs := autoMove s :: .wait :: s.inputs })

/-- The end of a successful INIT (44_session_ops.md R233). -/
def finishInit (s : State) : State := complete .ok { s with mode := .idle }

/-- The end of a successful PSTART (44_session_ops.md R236). -/
def finishPstart (s : State) : State := complete .ok { s with mode := .periodicMeasuring }

/-- The end of a successful MEAS (44_session_ops.md R235). -/
def finishMeas (t h rawT rawH : W16) (s : State) : State :=
  complete .ok { s with temp := t, hum := h, rawt := rawT, rawh := rawH, mvalid := true }

/-- The end of a successful RDSN (44_session_ops.md R234). -/
def finishRdsn (sn : W32) (s : State) : State := complete .ok { s with serial := sn, snvalid := true }

end Sys2Proof.Machine
end

