-- ==== Sys2Proof/Machine/Dispatch.lean ====
section
/-! DEFINITION. The dispatch: one arm for each constructor of Instr. -/

namespace Sys2Proof.Machine

def exec (i : Instr) (s : State) : Host.Outcome State Fault Refusal :=
  match i with
  | .init => Sys2Proof.Machine.execInit s
  | .rdsn => Sys2Proof.Machine.execRdsn s
  | .measH => Sys2Proof.Machine.execMeasH s
  | .measM => Sys2Proof.Machine.execMeasM s
  | .measL => Sys2Proof.Machine.execMeasL s
  | .pstart rate rep => Sys2Proof.Machine.execPstart rate rep s
  | .illegal w => Sys2Proof.Machine.execIllegal w s
  | .wait => Sys2Proof.Machine.execWait s
  | .write addr bytes => Sys2Proof.Machine.execWrite addr bytes s
  | .read addr len => Sys2Proof.Machine.execRead addr len s
  | .sendCmd cmd => Sys2Proof.Machine.execSendCmd cmd s
  | .readReply byteCount => Sys2Proof.Machine.execReadReply byteCount s
  | .delay ms => Sys2Proof.Machine.execDelay ms s
  | .crc8 b0 b1 seed => Sys2Proof.Machine.execCrc8 b0 b1 seed s
  | .checkGroup d0 d1 c => Sys2Proof.Machine.execCheckGroup d0 d1 c s
  | .checkFrame => Sys2Proof.Machine.execCheckFrame s
  | .convT rawT => Sys2Proof.Machine.execConvT rawT s
  | .convRh rawH => Sys2Proof.Machine.execConvRh rawH s
  | .tOk rawT => Sys2Proof.Machine.execTOk rawT s
  | .hOk rawH => Sys2Proof.Machine.execHOk rawH s
  | .decodeMeas => Sys2Proof.Machine.execDecodeMeas s
  | .decodeSerialRaw4 => Sys2Proof.Machine.execDecodeSerialRaw4 s
  | .decodeSerialChecked6 => Sys2Proof.Machine.execDecodeSerialChecked6 s
  | .addrbW addr => Sys2Proof.Machine.execAddrbW addr s
  | .addrbR addr => Sys2Proof.Machine.execAddrbR addr s
  | .cmdSoftReset => Sys2Proof.Machine.execCmdSoftReset s
  | .cmdReadSerial => Sys2Proof.Machine.execCmdReadSerial s
  | .cmdSsStretchH => Sys2Proof.Machine.execCmdSsStretchH s
  | .cmdSsStretchM => Sys2Proof.Machine.execCmdSsStretchM s
  | .cmdSsStretchL => Sys2Proof.Machine.execCmdSsStretchL s
  | .cmdSsNostretchH => Sys2Proof.Machine.execCmdSsNostretchH s
  | .cmdSsNostretchM => Sys2Proof.Machine.execCmdSsNostretchM s
  | .cmdSsNostretchL => Sys2Proof.Machine.execCmdSsNostretchL s
  | .cmdPeriodicH0 => Sys2Proof.Machine.execCmdPeriodicH0 s
  | .cmdPeriodicM0 => Sys2Proof.Machine.execCmdPeriodicM0 s
  | .cmdPeriodicL0 => Sys2Proof.Machine.execCmdPeriodicL0 s
  | .cmdPeriodicH1 => Sys2Proof.Machine.execCmdPeriodicH1 s
  | .cmdPeriodicM1 => Sys2Proof.Machine.execCmdPeriodicM1 s
  | .cmdPeriodicL1 => Sys2Proof.Machine.execCmdPeriodicL1 s
  | .cmdPeriodicH2 => Sys2Proof.Machine.execCmdPeriodicH2 s
  | .cmdPeriodicM2 => Sys2Proof.Machine.execCmdPeriodicM2 s
  | .cmdPeriodicL2 => Sys2Proof.Machine.execCmdPeriodicL2 s
  | .cmdPeriodicH3 => Sys2Proof.Machine.execCmdPeriodicH3 s
  | .cmdPeriodicM3 => Sys2Proof.Machine.execCmdPeriodicM3 s
  | .cmdPeriodicL3 => Sys2Proof.Machine.execCmdPeriodicL3 s
  | .cmdPeriodicH4 => Sys2Proof.Machine.execCmdPeriodicH4 s
  | .cmdPeriodicM4 => Sys2Proof.Machine.execCmdPeriodicM4 s
  | .cmdPeriodicL4 => Sys2Proof.Machine.execCmdPeriodicL4 s
  | .cmdFetch => Sys2Proof.Machine.execCmdFetch s

end Sys2Proof.Machine
end

