-- ==== Sys2Proof/Machine/Sequencer.lean ====
section
/-! DEFINITION. The sequencer: one step per phase transition or bus symbol (00_scope.md R9, 44_session_ops.md R240), and the same path with each
transaction run as one step (40_bus_transport.md R141). It reads only `LOP`, never the host port (10_state.md R31). -/

namespace Sys2Proof.Machine

/-- Run a next step on what the operation's latch holds; a latch that holds no operation is on no path. -/
def withLatched (s : State) (f : HostOp → Host.Outcome State Fault Refusal) : Host.Outcome State Fault Refusal :=
  match latched s.lop with
  | some op => f op
  | none => .fault .offPath

/-- The phase transition after a WRITE that returned `OK` (44_session_ops.md R233 to R236, R240; 41_command_protocol.md R165). -/
def afterWrite (s : State) : Host.Outcome State Fault Refusal :=
  withLatched s fun op =>
    match op with
    | .init => if s.cfg.tSettleResetMs = 0 then .next (finishInit s) else exec (.delay s.cfg.tSettleResetMs) s
    | .rdsn => exec (.delay s.cfg.tSettleSerialMs) s
    | .meas _ => exec (.delay s.cfg.tSettleMeasMs) s
    | .pstart _ _ => .next (finishPstart s)

/-- Leaving `P_SETTLE` once `DLY` is 0 (41_command_protocol.md R162; 44_session_ops.md R240). -/
def afterSettle (s : State) : Host.Outcome State Fault Refusal :=
  withLatched s fun op =>
    match op with
    | .init => .next (finishInit s)
    | .rdsn | .meas _ => .next { s with phase := .read, pos := .closed, ret := .none }
    | .pstart _ _ => .fault .offPath

/-- The length of the running operation's reply, where it has one. -/
def withReplyLength (s : State) (f : Nat → Host.Outcome State Fault Refusal) : Host.Outcome State Fault Refusal :=
  match (latched s.lop).bind (replyLength s.cfg) with
  | some n => f n
  | none => .fault .offPath

/-- `P_WRITE`, one symbol or phase transition (40_bus_transport.md R133, 41_command_protocol.md R160). DESIGN CHOICE: SEND_CMD's load of `TXBUF` is a
step of its own before `S`, with `PHASE` at `P_WRITE` already; 00_scope.md R9 names no step for it (log 30). -/
def seqWrite (s : State) : Host.Outcome State Fault Refusal :=
  match s.pos with
  | .closed =>
    match s.ret with
    | .none => withLatched s fun op => .next { loadCommand (commandOf op) s with pos := .loaded }
    | .ok => afterWrite s
    | .busError => .next (abort .busError s)
    | _ => .fault .offPath
  | .loaded => .next (busStart s)
  | .opened => exec (.addrbW s.cfg.devAddr) s
  | .payload 0 => .next { sendByte s.txbuf.b0 s with pos := match ackAnswer s with | .ack => .payload 1 | a => .failing a }
  | .payload 1 => .next { sendByte s.txbuf.b1 s with pos := match ackAnswer s with | .ack => .payload 2 | a => .failing a }
  | .payload _ => .next (returning .ok (busStop s))
  | .failing a => .next (returning .busError (endFailed a s))
  | .reading => .fault .offPath

/-- `P_READ`, one symbol or phase transition (40_bus_transport.md R134, 41_command_protocol.md R161). -/
def seqRead (s : State) : Host.Outcome State Fault Refusal :=
  match s.pos with
  | .closed =>
    match s.ret with
    | .none => withReplyLength s fun n => .next (readStart n s)
    | .ok => .next { s with phase := .decode, ret := .none }
    | .busError => .next (abort .busError s)
    | _ => .fault .offPath
  | .opened => exec (.addrbR s.cfg.devAddr) s
  | .reading =>
    if s.idx < s.len then
      match byteAnswer s with
      | .byte v => .next (receiveByte v s)
      | .timeout => .next { receiveTimeout s with pos := .failing .timeout }
    else .next (returning .ok (busStop s))
  | .failing a => .next (readFailed (endFailed a s))
  | .loaded | .payload _ => .fault .offPath

/-- MEAS in `P_DECODE`: CHECK_FRAME, DECODE_MEAS, and the end of the operation (44_session_ops.md R235; 60_exceptions.md R265). -/
def decodeMeas (s : State) : State :=
  let rawT := rawTOf s.rxbuf
  let rawH := rawHOf s.rxbuf
  unlessError ((frameError s.rxbuf).or (measError s.rxbuf)) (finishMeas (tWord rawT) (hWord rawH) rawT rawH) s

/-- RDSN in `P_DECODE`: DECODE_SERIAL in the configured mode, and the end of the operation (44_session_ops.md R234; 60_exceptions.md R265). -/
def decodeSerial (s : State) : State :=
  match s.cfg.serialMode with
  | .raw4 => unlessError (serialError (serialRaw4Of s.rxbuf)) (finishRdsn (serialRaw4Of s.rxbuf)) s
  | .checked6 => unlessError (checkedSerialError s.rxbuf) (finishRdsn (serialChecked6Of s.rxbuf)) s

/-- `P_DECODE`, one step: every comparison is consumed in it and kept nowhere, and so are the remainder and the conversion (10_state.md R37, R40). -/
def seqDecode (s : State) : Host.Outcome State Fault Refusal :=
  withLatched s fun op =>
    match op with
    | .meas _ => .next (decodeMeas s)
    | .rdsn => .next (decodeSerial s)
    | .init | .pstart _ _ => .fault .offPath

/-- One step of the sequencer. In `P_IDLE` it waits for an `OP` write, in `P_SETTLE` for ticks. -/
def seqStep (s : State) : Host.Outcome State Fault Refusal :=
  match s.phase with
  | .idle => .next s
  | .cfg => .next { release s with phase := .write, pos := .closed, ret := .none }
  | .write => seqWrite s
  | .settle => if s.dly = 0 then afterSettle s else .next s
  | .read => seqRead s
  | .decode => seqDecode s

/-- The instruction that `TXBUF` holds: the command word waiting there for its WRITE (10_state.md R32; log 17). -/
def fetchCommand (s : State) : Instr :=
  match decodeCommand s.cfg (txWord s.txbuf) with
  | some cmd => cmd.toInstr
  | none => .write s.cfg.devAddr [s.txbuf.b0, s.txbuf.b1]

/-- The sub-operation at which the sequencer stands, run as one step: SEND_CMD, the WRITE of `TXBUF`, READ_REPLY. Anywhere else, one step of the
sequencer (40_bus_transport.md R141; log 10). -/
def subStep (s : State) : Host.Outcome State Fault Refusal :=
  match s.phase, s.pos, s.ret with
  | .write, .closed, .none => withLatched s fun op => exec (.sendCmd (commandOf op)) s
  | .write, .loaded, _ => exec (fetchCommand s) s
  | .read, .closed, .none => withReplyLength s fun n => exec (.readReply n) s
  | _, _, _ => seqStep s

end Sys2Proof.Machine
end

