-- ==== Sys2Proof/Machine/Agents.lean ====
section
/-! DEFINITION. The moves of the host, of time and of the platform (70_reset_and_hazards.md R305), and one move of any agent. -/

namespace Sys2Proof.Machine

/-- `HostRead(n)` (10_state.md R21): the whole register in one event; above 8 there is no register and no step. -/
def hostRead (n : Nat) (s : State) : Host.Outcome State Fault Refusal :=
  match readReg s n with
  | some v => .next (observe n v s)
  | none => .refused (.noSuchRegister n)

/-- `HostWrite(n, v)` (10_state.md R21, R22): a write of `OP` runs the instruction its low 8 bits encode; registers 1 to 8 are read-only; above 8
there is no register and no step (log 12). -/
def hostWrite (n : Nat) (v : W32) (s : State) : Host.Outcome State Fault Refusal :=
  if n = 0 then exec (decodeOp (v.setWidth 8)) s
  else if n ≤ 8 then .next s
  else .refused (.noSuchRegister n)

/-- A millisecond tick (60_exceptions.md R271, R272): takes one from `DLY` in `P_SETTLE` (10_state.md R34) and one from `TMO` while a transaction
runs (R35); neither goes below 0. -/
def tick (s : State) : State :=
  { s with
    dly := if s.phase = .settle then s.dly - 1 else s.dly,
    tmo := if isOpen s.pos then s.tmo - 1 else s.tmo }

/-- The block's reset in any state (70_reset_and_hazards.md R290 to R292): the reset values of 10_state.md R38, no `complete`, and `X` in the trace if a
transaction was open. The parameters and the other agents' data stay (log 21). -/
def blockReset (s : State) : State :=
  { State.reset with
    cfg := s.cfg, trace := if isOpen s.pos then s.trace ++ [.abort] else s.trace,
    inputs := s.inputs, acks := s.acks, bytes := s.bytes, fresh := s.fresh, reads := s.reads }

/-- One move of one agent. -/
def runMove (m : Move) (s : State) : Host.Outcome State Fault Refusal :=
  match m with
  | .hostRead n => hostRead n s
  | .hostWrite n v => hostWrite n v s
  | .wait => exec .wait s
  | .tick => .next (tick s)
  | .rst => .next (blockReset s)
  | .seq => seqStep s
  | .sub => subStep s

/-- The place from which the sequencer runs the command in `TXBUF` as its next step. -/
def atCommand (w : W16) (s : State) : State :=
  { s with busy := true, phase := .write, pos := .loaded, txbuf := txOf w, inputs := .sub :: s.inputs }

/-- The place from which the sequencer sends the address byte `b` as its next step: `S` is out, `TMO` is loaded, `DEV_ADDR` is the byte's. -/
def atAddressByte (b : Byte) (s : State) : State :=
  { s with
    cfg := { s.cfg with devAddr := b.extractLsb' 1 7 }, busy := true, phase := if b.extractLsb' 0 1 = 0#1 then .write else .read,
    pos := .opened, tmo := Config.busTimeoutMs, inputs := .seq :: s.inputs }

end Sys2Proof.Machine
end

