-- ==== Sys2Proof/Machine/Step.lean ====
section
/-! DEFINITION. One step of the machine, and where its next instruction is fetched. -/

namespace Sys2Proof.Machine

/-- One step: the agent at the head of the inputs moves; with no input left, the Time agent while the settle delay runs, else the sequencer
(00_scope.md R9; log 7). -/
def step (s : State) : Host.Outcome State Fault Refusal :=
  match s.inputs with
  | [] => runMove (autoMove s) s
  | m :: rest => runMove m { s with inputs := rest }

/-- The state with a table word where `step` fetches its next instruction (log 17). An operation word is the host's next write of `OP`. A command word
stands in `TXBUF` with the sequencer about to WRITE it. An 8-bit word that has no operation's form is read as an address byte (log 16): the
sequencer stands after `S` with that byte next. -/
def State.withFetchWord (s : State) (nbits w : Nat) : State :=
  match nbits with
  | 8 =>
    match decodeOp (BitVec.ofNat 8 w) with
    | .illegal b => atAddressByte b s
    | _ => { s with inputs := .hostWrite 0 (BitVec.ofNat 32 (w % 256)) :: s.inputs }
  | 16 => atCommand (BitVec.ofNat 16 w) s
  | _ => s

end Sys2Proof.Machine
end

