-- ==== Sys2Proof/Safety.lean ====
section
/-! DEFINITION. What counts as a safe state and a safe run, in the terms the statements use. -/

namespace Sys2Proof.Machine

/-- Where a well-formed bus trace stands. -/
inductive BusTrack where
  /-- No transaction is open. -/
  | closed
  /-- `S` is out, the address byte is next. -/
  | begun
  /-- A WRITE whose address byte and `n` payload bytes are acknowledged. -/
  | writing (n : Nat)
  /-- A READ that has received `n` bytes, with more to come. -/
  | reading (n : Nat)
  /-- A READ whose last byte was not acknowledged by the block: `P` is next. -/
  | lastByte
  /-- The peer answered `NACK`: `P` is next. -/
  | nacked
  /-- The peer answered `TIMEOUT`: `X` is next. -/
  | timedOut
deriving DecidableEq, Repr

/-- Where an answer to a byte sent leaves the trace. -/
def trackAnswer (onAck : BusTrack) : Ack → BusTrack
  | .ack => onAck
  | .nack => .nacked
  | .timeout => .timedOut

/-- The grammar of the bus trace (20_memory.md R64, R65, R67; 40_bus_transport.md R133 to R135): transactions do not interleave, each is addressed to
`DEV_ADDR`, a completed WRITE sends 2 bytes and a completed READ receives 4 or 6 (R64), all acknowledged but the last, a `NACK` is followed by `P`
and a `TIMEOUT` by `X`. The block's reset may put `X` into any open transaction (70_reset_and_hazards.md R292). -/
def track (dev : Addr7) : BusTrack → BusSym → Option BusTrack
  | .closed, .start => some .begun
  | .begun, .sent b a =>
    if b = addrByteW dev then some (trackAnswer (.writing 0) a)
    else if b = addrByteR dev then some (trackAnswer (.reading 0) a)
    else none
  | .writing n, .sent _ a => if n < 2 then some (trackAnswer (.writing (n + 1)) a) else none
  | .writing n, .stop => if n = 2 then some .closed else none
  | .reading n, .receivedAck _ => if n < 5 then some (.reading (n + 1)) else none
  | .reading n, .receivedNack _ => if n = 3 ∨ n = 5 then some .lastByte else none
  | .reading _, .receiveTimeout => some .timedOut
  | .lastByte, .stop => some .closed
  | .nacked, .stop => some .closed
  | .begun, .abort | .writing _, .abort | .reading _, .abort | .lastByte, .abort | .nacked, .abort | .timedOut, .abort => some .closed
  | _, _ => none

/-- The whole trace, from an idle bus. -/
def trackTrace (dev : Addr7) (trace : List BusSym) : Option BusTrack := trace.foldlM (track dev) .closed

/-- Where the trace of a state stands, by its bus position. -/
def trackOf (s : State) : BusTrack :=
  match s.pos with
  | .closed | .loaded => .closed
  | .opened => .begun
  | .payload i => .writing i
  | .reading => if s.idx < s.len then .reading s.idx else .lastByte
  | .failing .nack => .nacked
  | .failing _ => .timedOut

/-- Quiescent entry, premise (a) of 70_reset_and_hazards.md R306. -/
def Quiescent (s : State) : Prop :=
  s.busy = false ∧ s.phase = .idle ∧ s.dly = 0 ∧ s.tmo = 0 ∧ s.sclOut = .released ∧ s.sdaOut = .released ∧ s.pos = .closed ∧ s.ret = .none

/-- The bus positions and returned values that `P_WRITE` passes through. -/
def onWritePath (pos : BusPos) (ret : SubResult) : Prop :=
  match pos with
  | .closed => ret = .none ∨ ret = .ok ∨ ret = .busError
  | .loaded | .opened => ret = .none
  | .payload i => i ≤ 2 ∧ ret = .none
  | .failing a => a ≠ .ack ∧ ret = .none
  | .reading => False

/-- The bus positions and returned values that `P_READ` passes through, reading `n` bytes. -/
def onReadPath (n : Nat) (s : State) : Prop :=
  match s.pos with
  | .closed => s.ret = .none ∨ s.ret = .ok ∨ s.ret = .busError
  | .opened => s.ret = .none ∧ s.len = n ∧ s.idx = 0
  | .reading => s.ret = .none ∧ s.len = n ∧ s.idx ≤ n
  | .failing a => a ≠ .ack ∧ s.ret = .none
  | .loaded | .payload _ => False

/-- The sequencer stands on the path of its latched operation (44_session_ops.md R240). -/
def onPath (s : State) : Prop :=
  match s.phase with
  | .idle => Quiescent s
  | .cfg => latched s.lop = some .init ∧ s.pos = .closed ∧ s.ret = .none
  | .write =>
    ∃ op, latched s.lop = some op ∧ onWritePath s.pos s.ret ∧
      (s.pos ≠ .closed → s.txbuf = txOf (commandWord s.cfg (commandOf op)))
  | .settle => ∃ op, latched s.lop = some op ∧ (∀ rate rep, op ≠ .pstart rate rep) ∧ s.pos = .closed ∧ s.ret = .none
  | .read => ∃ op n, latched s.lop = some op ∧ replyLength s.cfg op = some n ∧ onReadPath n s
  | .decode => ∃ op n, latched s.lop = some op ∧ replyLength s.cfg op = some n ∧ s.pos = .closed ∧ s.ret = .none

/-- What the running operation's start step has left (44_session_ops.md R231, R233, R236; 20_memory.md R69). -/
def ownCleared (op : HostOp) (s : State) : Prop :=
  match op with
  | .init => s.mode = .uninitialized
  | .rdsn => s.snvalid = false
  | .meas _ => s.mvalid = false
  | .pstart _ _ => s.cfg.hasPeriodicStart = true ∧ s.mode ≠ .uninitialized

/-- THE INVARIANT of the block: what 10_state.md R23 to R36, 20_memory.md R64, R65, R69 and 44_session_ops.md R240 say of every state a run reaches. -/
structure Inv (s : State) : Prop where
  /-- `PHASE = P_IDLE` if and only if `BUSY = 0` (R30). -/
  busy_iff_phase : s.busy = true ↔ s.phase ≠ .idle
  /-- `BUSY` and `DONE` are never both 1 (R23). -/
  not_busy_and_done : s.busy = true → s.done = false
  /-- `ERR = 0` while an operation runs (R69). -/
  err_clear_while_busy : s.busy = true → s.err = .ok
  /-- Between transactions both line drivers are `released` (R36, R140). -/
  lines_released : isOpen s.pos = false → s.sclOut = .released ∧ s.sdaOut = .released
  /-- `DLY` counts in `P_SETTLE` only (R34). -/
  delay_only_in_settle : s.phase ≠ .settle → s.dly = 0
  /-- While `MVALID = 1` the registers hold an accepted measurement (R26 to R28). -/
  measurement_valid : s.mvalid = true → tOk s.rawt = true ∧ s.temp = tWord s.rawt ∧ s.hum = hWord s.rawh
  /-- While `MVALID = 0` they read 0 (R26 to R28). -/
  measurement_zero : s.mvalid = false → s.temp = 0#16 ∧ s.hum = 0#16 ∧ s.rawt = 0#16 ∧ s.rawh = 0#16
  /-- While `SNVALID = 1` the serial number is not all ones (R29). -/
  serial_valid : s.snvalid = true → s.serial ≠ 0xFFFFFFFF#32
  /-- While `SNVALID = 0` it reads 0 (R29, 44_session_ops.md R234). -/
  serial_zero : s.snvalid = false → s.serial = 0#32
  /-- Without `HAS_PERIODIC_START`, `MODE` never holds `PeriodicMeasuring` (R236). -/
  periodic_only_with_option : s.mode = .periodicMeasuring → s.cfg.hasPeriodicStart = true
  /-- The sequencer stands on its operation's path (R240). -/
  on_path : onPath s
  /-- No comparison, remainder or converted value is kept: what a step hands to the next is at most a transaction's outcome (R37, R40). -/
  nothing_kept : s.ret = .none ∨ s.ret = .ok ∨ s.ret = .busError
  /-- The running operation's own results are cleared (R231). -/
  own_cleared : s.busy = true → ∀ op, latched s.lop = some op → ownCleared op s
  /-- The bus trace is well formed and stands where the sequencer does (R65, R133 to R135). -/
  trace_well_formed : trackTrace s.cfg.devAddr s.trace = some (trackOf s)

/-- A run from `s` is safe: it never ends in a fault. -/
def Safe (s : State) : Prop := ∀ k f, Host.Core.run core k s ≠ .fault f

/-! ## Vocabulary of the statements, written from the rules -/

/-- The legal operation words of 30_encoding.md R95, written from the rule: 0x20; 0x40; 0x60, 0x61, 0x62; and with `HAS_PERIODIC_START`
0x80 + 4 * rate + rep with rate < `N_RATES` and rep ≤ 2. -/
def legalWord (c : Config) (w : Byte) : Bool :=
  w == 0x20#8 || w == 0x40#8 || w == 0x60#8 || w == 0x61#8 || w == 0x62#8 ||
    (c.hasPeriodicStart && decide (0x80 ≤ w.toNat) && decide ((w.toNat - 0x80) / 4 < c.nRates) && decide ((w.toNat - 0x80) % 4 ≤ 2) &&
      decide (w.toNat < 0xA0))

/-- The symbol that ends a failed transaction (40_bus_transport.md R135): `P` after `NACK`, `X` after `TIMEOUT`. -/
def endSymbol : Ack → List BusSym
  | .ack => []
  | .nack => [.stop]
  | .timeout => [.abort]

/-- The data symbols of a READ that receives `vs` (40_bus_transport.md R134): every byte acknowledged except the last. -/
def receivedSymbols : List Byte → List BusSym
  | [] => []
  | [v] => [.receivedNack v]
  | v :: rest => .receivedAck v :: receivedSymbols rest

/-- The table of 30_encoding.md R98: each of the 24 command rows with the parameter that holds its word. -/
def commandRows (c : Config) : List (Instr × W16) :=
  [(.cmdSoftReset, c.cmdSoftReset), (.cmdReadSerial, c.cmdReadSerial), (.cmdSsStretchH, c.cmdSsStretch.high),
    (.cmdSsStretchM, c.cmdSsStretch.medium), (.cmdSsStretchL, c.cmdSsStretch.low), (.cmdSsNostretchH, c.cmdSsNostretch.high),
    (.cmdSsNostretchM, c.cmdSsNostretch.medium), (.cmdSsNostretchL, c.cmdSsNostretch.low)] ++
  [(.cmdPeriodicH0, c.cmdPeriodicHigh.r0), (.cmdPeriodicM0, c.cmdPeriodicMedium.r0), (.cmdPeriodicL0, c.cmdPeriodicLow.r0),
    (.cmdPeriodicH1, c.cmdPeriodicHigh.r1), (.cmdPeriodicM1, c.cmdPeriodicMedium.r1), (.cmdPeriodicL1, c.cmdPeriodicLow.r1),
    (.cmdPeriodicH2, c.cmdPeriodicHigh.r2), (.cmdPeriodicM2, c.cmdPeriodicMedium.r2), (.cmdPeriodicL2, c.cmdPeriodicLow.r2)] ++
  [(.cmdPeriodicH3, c.cmdPeriodicHigh.r3), (.cmdPeriodicM3, c.cmdPeriodicMedium.r3), (.cmdPeriodicL3, c.cmdPeriodicLow.r3),
    (.cmdPeriodicH4, c.cmdPeriodicHigh.r4), (.cmdPeriodicM4, c.cmdPeriodicMedium.r4), (.cmdPeriodicL4, c.cmdPeriodicLow.r4),
    (.cmdFetch, c.cmdFetch)]

/-- Long division by x^8 + x^5 + x^4 + 1 = 0x131 over `k` bits above bit 7, most significant first. -/
def remainder131 : Nat → Nat → Nat
  | 0, x => x
  | k + 1, x => remainder131 k (if x.testBit (k + 8) then x ^^^ (0x131 <<< k) else x)

/-- What the abort leaves (60_exceptions.md R266, 44_session_ops.md R232), but for the content of `RXBUF`, which is any value (log 4). -/
def aborted (code : ErrCode) (s t : State) : Prop :=
  t = { s with
    err := code, busy := false, done := true, phase := .idle, dly := 0, tmo := 0, sclOut := .released, sdaOut := .released, pos := .closed,
    ret := .none, rxbuf := t.rxbuf, fresh := t.fresh }

/-- Some number of steps leads from one state to the other. -/
def reaches (s t : State) : Prop := ∃ k, Host.Core.run core k s = .next t

/-- The trace of an acknowledged command (41_command_protocol.md R160, 30_encoding.md R97): the word's high byte, then its low byte. -/
def commandSymbols (dev : Addr7) (c : W16) : List BusSym :=
  [.start, .sent (addrByteW dev) .ack, .sent (c.extractLsb' 8 8) .ack, .sent (c.extractLsb' 0 8) .ack, .stop]

/-- The trace of an acknowledged command and its whole reply (44_session_ops.md R234, R235). -/
def exchange (dev : Addr7) (c : W16) (vs : List Byte) : List BusSym :=
  commandSymbols dev c ++ .start :: .sent (addrByteR dev) .ack :: receivedSymbols vs ++ [.stop]

end Sys2Proof.Machine
end

