-- ==== Sys2Proof/Certificates/Slice0/Obligations.lean ====
section
/-! DEFINITION. The statements for the provers. Each docstring names the rule of spec/ it formalises. "exec i s = next t" with t written as a record
update of s says the frame as well: every field not named is unchanged. The block has no memory (20_memory.md R60), so no statement speaks of
memory bytes. -/

open Sys2Proof Sys2Proof.Machine

/-! ## Encoding -/

/-- Words written out from 30_encoding.md R91 to R98 decode to the instruction whose form they have: operation words, address bytes and command words.
Two things are the model's: a word of PSTART's form decodes to PSTART in every configuration, also where R95 calls it illegal and PSTART's meaning
refuses it (log 15), and command words and address bytes are read with the spec's general-knowledge defaults (log 2). -/
def Obligations.KnownWordsDecode : Prop :=
  decodeOp 0b00100000#8 = .init ∧ decodeOp 0b01000000#8 = .rdsn ∧ decodeOp 0b01100000#8 = .measH ∧ decodeOp 0b01100001#8 = .measM ∧
  decodeOp 0b01100010#8 = .measL ∧ decodeOp 0b01100011#8 = .illegal 0x63#8 ∧ decodeOp 0b00000000#8 = .illegal 0x00#8 ∧
  decodeOp 0b00100001#8 = .illegal 0x21#8 ∧ decodeOp 0b01000100#8 = .illegal 0x44#8 ∧ decodeOp 0b01100100#8 = .illegal 0x64#8 ∧
  decodeOp 0b10000101#8 = .pstart 1#3 .medium ∧ decodeOp 0b10001000#8 = .pstart 2#3 .high ∧ decodeOp 0b10000011#8 = .illegal 0x83#8 ∧
  decodeOp 0b11111111#8 = .illegal 0xFF#8 ∧
  decodeAddrb 0b10001000#8 = .addrbW 0x44#7 ∧ decodeAddrb 0b10001001#8 = .addrbR 0x44#7 ∧
  decode .cmd16 [0x30#8, 0xA2#8] = .ok .cmdSoftReset ∧ decode .cmd16 [0x37#8, 0x80#8] = .ok .cmdReadSerial ∧
  decode .cmd16 [0x2C#8, 0x0D#8] = .ok .cmdSsStretchM ∧ decode .cmd16 [0x24#8, 0x16#8] = .ok .cmdSsNostretchL ∧
  decode .cmd16 [0x27#8, 0x21#8] = .ok .cmdPeriodicM4 ∧ decode .cmd16 [0xE0#8, 0x00#8] = .ok .cmdFetch

/-- Decoding the encoding of a well-formed instruction gives it back, for every row of the table that has an encoding and every value of its
operands (30_encoding.md R91 to R98). Two things are the model's: the decoder takes no configuration, so PSTART decodes with every rate (log 15), and the
command rows and the address byte are encoded and decoded with the spec's general-knowledge defaults (log 2). -/
def Obligations.DecodeAfterEncodeIsIdentity : Prop :=
  ∀ i : Instr, i.wf = true → i.format ≠ .none → decode i.format (encode i) = .ok i

/-- 30_encoding.md R95, 44_session_ops.md R231, R237: with `BUSY = 0`, an illegal word is refused (nothing changes but `ERR = 5` and `DONE = 1`, no symbol is
emitted), a legal word begins an operation (`BUSY = 1`), and the one exception is a legal PSTART word in `Uninitialized`, which is refused as well. -/
def Obligations.OperationWordStartsOrIsRefused : Prop :=
  ∀ (s : State) (w : Byte), Quiescent s →
    (legalWord s.cfg w = false → exec (decodeOp w) s = .next { s with err := .illegalOp, done := true }) ∧
    (legalWord s.cfg w = true → w.toNat < 0x80 →
      ∃ t, exec (decodeOp w) s = .next t ∧ t.busy = true ∧ t.done = false ∧ t.err = .ok) ∧
    (legalWord s.cfg w = true → 0x80 ≤ w.toNat → s.mode ≠ .uninitialized →
      ∃ t, exec (decodeOp w) s = .next t ∧ t.busy = true ∧ t.done = false ∧ t.err = .ok) ∧
    (legalWord s.cfg w = true → 0x80 ≤ w.toNat → s.mode = .uninitialized →
      exec (decodeOp w) s = .next { s with err := .illegalOp, done := true })

/-! ## The step and the host -/

/-- A step runs the decoded instruction: with the host's write of `OP` next, `step` is `exec` of the instruction the low 8 bits of the value encode, at
the state with that input consumed. That a value wider than 8 bits is cut to the register's width is log 12. -/
def Obligations.StepRunsTheOperationWord : Prop :=
  ∀ (s : State) (rest : List Move) (v : W32), s.inputs = .hostWrite 0 v :: rest →
    step s = exec (decodeOp (v.setWidth 8)) { s with inputs := rest }

/-- A step runs the command word that stands in `TXBUF`: where the sequencer is about to WRITE it and takes the whole sub-operation as one step
(40_bus_transport.md R141), `step` is `exec` of the row that stands for the command. The fetch of a command from `TXBUF` is the model's (log 17). -/
def Obligations.StepRunsTheCommandInTxbuf : Prop :=
  ∀ (s : State) (rest : List Move) (cmd : Command), s.inputs = .sub :: rest → s.phase = .write → s.pos = .loaded →
    decodeCommand s.cfg (txWord s.txbuf) = some cmd →
    step s = exec cmd.toInstr { s with inputs := rest }

/-- `withFetchWord` places a table word so that the very next step runs the instruction it decodes to (the model's own definition, logs 16 and 17):
an operation word runs at the state itself, an address byte or a command word at a state that differs from it only in the sequencer's place,
`TXBUF`, `TMO` and `DEV_ADDR`. -/
def Obligations.FetchedTableWordRuns : Prop :=
  ∀ (s : State) (nbits w : Nat) (i : Instr), s.cfg = Config.default → decodeTableWord nbits w = some i →
    ∃ t, step (s.withFetchWord nbits w) = exec i t ∧ (i.format = .opw → t = s) ∧
      t = { s with
        cfg := { s.cfg with devAddr := t.cfg.devAddr }, busy := t.busy, phase := t.phase, txbuf := t.txbuf, tmo := t.tmo, pos := t.pos }

/-- 10_state.md R21: `HostRead(n)` returns the whole register in one event and changes no state (the host's record of what it read is no
state of the block, log 13); `HostWrite(n, v)` for `n` in 1 to 8 changes no state; an access above 8 has no step. The codes of `ERR` are those of R24
and 60_exceptions.md R260, the codes of `MODE` those of R25. -/
def Obligations.HostRegisterFile : Prop :=
  (errCode .ok = 0#8 ∧ errCode .busError = 1#8 ∧ errCode .checksumMismatch = 2#8 ∧ errCode .invalidResponse = 3#8 ∧
    errCode .implausibleReading = 4#8 ∧ errCode .illegalOp = 5#8) ∧
  (modeCode .uninitialized = 0#8 ∧ modeCode .idle = 1#8 ∧ modeCode .periodicMeasuring = 2#8) ∧
  ∀ (s : State) (rest : List Move),
    (∀ n v, s.inputs = .hostRead n :: rest →
      (n, v) ∈ [(0, HostVal.b8 0#8), (1, .b8 (statusWord s)), (2, .b8 (errCode s.err)), (3, .b8 (modeCode s.mode)), (4, .b16 s.temp),
        (5, .b16 s.hum), (6, .b16 s.rawt), (7, .b16 s.rawh), (8, .b32 s.serial)] →
      step s = .next { s with inputs := rest, reads := s.reads ++ [(n, v)] }) ∧
    (∀ n v, s.inputs = .hostWrite n v :: rest → 1 ≤ n → n ≤ 8 → step s = .next { s with inputs := rest }) ∧
    (∀ n, s.inputs = .hostRead n :: rest → 8 < n → step s = .refused (.noSuchRegister n)) ∧
    (∀ n v, s.inputs = .hostWrite n v :: rest → 8 < n → step s = .refused (.noSuchRegister n))

/-- 10_state.md R23: the bits of `STATUS` are `BUSY`, `DONE`, `MVALID`, `SNVALID`, and bits 7:4 read as 0. -/
def Obligations.StatusBits : Prop :=
  ∀ s : State, (statusWord s).toNat = s.busy.toNat + 2 * s.done.toNat + 4 * s.mvalid.toNat + 8 * s.snvalid.toNat

/-- 10_state.md R22: while `BUSY = 1` a write of `OP` is ignored and changes nothing; with `BUSY = 0` a write of a word that begins an operation copies
the word's fields into `LOP`; `OP` reads 0x00. That a value wider than 8 bits is cut to its low 8 is the model's (log 12). -/
def Obligations.OperationRegister : Prop :=
  ∀ (s : State) (rest : List Move) (v : W32),
    (s.inputs = .hostWrite 0 v :: rest → s.busy = true → step s = .next { s with inputs := rest }) ∧
    (s.inputs = .hostWrite 0 v :: rest → s.busy = false →
      ∀ t, step s = .next t → t.busy = true →
        t.lop = ⟨(v.setWidth 8 : Byte).extractLsb' 5 3, (v.setWidth 8 : Byte).extractLsb' 2 3, (v.setWidth 8 : Byte).extractLsb' 0 2⟩) ∧
    (s.inputs = .hostRead 0 :: rest → step s = .next { s with inputs := rest, reads := s.reads ++ [(0, .b8 0x00#8)] })

/-- 30_encoding.md R106: WAIT reads `STATUS` once; if it read `DONE` the host goes on, else it polls again after another agent's move (log 20: that the
other agent moves between two polls). -/
def Obligations.WaitPolls : Prop :=
  ∀ s : State,
    (s.done = true → exec .wait s = .next { s with reads := s.reads ++ [(1, .b8 (statusWord s))] }) ∧
    (s.done = false → exec .wait s = .next { s with
      reads := s.reads ++ [(1, .b8 (statusWord s))], inputs := autoMove s :: .wait :: s.inputs })

/-! ## Start steps -/

/-- 44_session_ops.md R231, R233: INIT's start step. `RXBUF` is discarded: any content (log 4). -/
def Obligations.InitStarts : Prop :=
  ∀ s : State, s.busy = false → ∃ t, exec .init s = .next t ∧
    t = { s with
      done := false, err := .ok, lop := ⟨1#3, 0#3, 0#2⟩, busy := true, mode := .uninitialized, phase := .cfg, pos := .closed, ret := .none,
      rxbuf := t.rxbuf, fresh := t.fresh }

/-- 44_session_ops.md R231, R234: RDSN's start step clears `SERIAL` and `SNVALID` and nothing of the measurement; `MODE` is untouched. -/
def Obligations.RdsnStarts : Prop :=
  ∀ s : State, s.busy = false → ∃ t, exec .rdsn s = .next t ∧
    t = { s with
      done := false, err := .ok, lop := ⟨2#3, 0#3, 0#2⟩, busy := true, snvalid := false, serial := 0#32, phase := .write, pos := .closed,
      ret := .none, rxbuf := t.rxbuf, fresh := t.fresh }

/-- 44_session_ops.md R231, R235: the start step of MEAS.H, MEAS.M, MEAS.L clears the four measurement registers and `MVALID` and nothing of the serial
number; `MODE` is untouched. The three differ in `LOP`'s `rep` only. -/
def Obligations.MeasStarts : Prop :=
  ∀ (s : State) (i : Instr) (rep : BitVec 2), (i, rep) ∈ [(Instr.measH, 0#2), (.measM, 1#2), (.measL, 2#2)] → s.busy = false →
    ∃ t, exec i s = .next t ∧
      t = { s with
        done := false, err := .ok, lop := ⟨3#3, 0#3, rep⟩, busy := true, mvalid := false, temp := 0#16, hum := 0#16, rawt := 0#16,
        rawh := 0#16, phase := .write, pos := .closed, ret := .none, rxbuf := t.rxbuf, fresh := t.fresh }

/-- 44_session_ops.md R231, R236: PSTART's start step, where `HAS_PERIODIC_START`, `rate < N_RATES` and the mode is not `Uninitialized`; in every other
case it is refused with `IllegalOp`, without bus activity. -/
def Obligations.PstartStarts : Prop :=
  ∀ (s : State) (rate : BitVec 3) (rep : Rep) (r : BitVec 2), (rep, r) ∈ [(Rep.high, 0#2), (.medium, 1#2), (.low, 2#2)] → Quiescent s →
    (s.cfg.hasPeriodicStart = true → rate.toNat < s.cfg.nRates → s.mode ≠ .uninitialized →
      ∃ t, exec (.pstart rate rep) s = .next t ∧
        t = { s with
          done := false, err := .ok, lop := ⟨4#3, rate, r⟩, busy := true, phase := .write, rxbuf := t.rxbuf, fresh := t.fresh }) ∧
    ((s.cfg.hasPeriodicStart = false ∨ s.cfg.nRates ≤ rate.toNat ∨ s.mode = .uninitialized) →
      exec (.pstart rate rep) s = .next { s with err := .illegalOp, done := true })

/-- 44_session_ops.md R237: (illegal), in the start step: `ERR <- 5`, `STATUS.DONE <- 1`, and nothing else changes. -/
def Obligations.IllegalWordRefused : Prop :=
  ∀ (s : State) (w : Byte), Quiescent s → exec (.illegal w) s = .next { s with err := .illegalOp, done := true }

/-! ## Bus transport -/

/-- 40_bus_transport.md R133: the WRITE transaction of one byte or more with every answer `ACK` emits `S W(ADDRB_W)/ACK W(b)/ACK ... P` and returns `OK`.
Nothing but the bus, `TMO` and the returned value changes. The instruction runs it for 2 bytes, the only length that 92_eei_decisions.md D32 does not
refuse (log 18); of another length R133's transaction is a definition of the model that no instruction runs. -/
def Obligations.WriteAcknowledged : Prop :=
  ∀ (s : State) (addr : Addr7) (bytes : List Byte) (rest : List Ack), bytes ≠ [] →
    s.acks = List.replicate (bytes.length + 1) .ack ++ rest →
    ∃ t, (bytes.length = 2 → exec (.write addr bytes) s = .next t) ∧ writeTransaction addr bytes s = t ∧
      t = { s with
        trace := s.trace ++ .start :: (addrByteW addr :: bytes).map (.sent · .ack) ++ [.stop], acks := rest, ret := .ok,
        tmo := 1000, sclOut := .released, sdaOut := .released, pos := .closed, fresh := t.fresh }

/-- 40_bus_transport.md R133, R135: in the WRITE transaction of one byte or more, the first answer other than `ACK` ends it with `BusError`; no later byte is
sent; `P` follows a `NACK`, `X` a `TIMEOUT`. The instruction runs it for 2 bytes, the only length that 92_eei_decisions.md D32 does not refuse (log 18). -/
def Obligations.WriteFailsAtFirstBadAnswer : Prop :=
  ∀ (s : State) (addr : Addr7) (bytes before after : List Byte) (b : Byte) (a : Ack) (rest : List Ack), bytes ≠ [] →
    addrByteW addr :: bytes = before ++ b :: after → a ≠ .ack → s.acks = List.replicate before.length .ack ++ a :: rest →
    ∃ t, (bytes.length = 2 → exec (.write addr bytes) s = .next t) ∧ writeTransaction addr bytes s = t ∧
      t = { s with
        trace := s.trace ++ .start :: before.map (.sent · .ack) ++ .sent b a :: endSymbol a, acks := rest, ret := .busError,
        tmo := 1000, sclOut := .released, sdaOut := .released, pos := .closed, fresh := t.fresh }

/-- 40_bus_transport.md R134: the READ transaction of 1 to 6 bytes with the address acknowledged and every byte supplied emits
`S W(ADDRB_R)/ACK R(v)/A ... R(v)/N P`, puts the bytes into `RXBUF` in order, and returns `OK`. The instruction runs it for 4 and 6 bytes, the only lengths
that 92_eei_decisions.md D32 does not refuse (log 18). -/
def Obligations.ReadReceivesAllBytes : Prop :=
  ∀ (s : State) (addr : Addr7) (vs : List Byte) (ackRest : List Ack) (byteRest : List PeerByte), 1 ≤ vs.length → vs.length ≤ 6 →
    s.acks = .ack :: ackRest → s.bytes = vs.map .byte ++ byteRest →
    ∃ t, (vs.length = 4 ∨ vs.length = 6 → exec (.read addr vs.length) s = .next t) ∧ readTransaction addr vs.length s = t ∧
      (∀ i, i < vs.length → rxGet t.rxbuf i = vs[i]?) ∧ (∀ i, vs.length ≤ i → rxGet t.rxbuf i = rxGet s.rxbuf i) ∧
      t = { s with
        trace := s.trace ++ .start :: .sent (addrByteR addr) .ack :: receivedSymbols vs ++ [.stop],
        acks := ackRest, bytes := byteRest, ret := .ok, rxbuf := t.rxbuf, len := vs.length, idx := vs.length,
        tmo := 1000, sclOut := .released, sdaOut := .released, pos := .closed, fresh := t.fresh }

/-- 40_bus_transport.md R134, R135: the READ transaction of 1 to 6 bytes returns `BusError` when the address is answered `NACK` or `TIMEOUT`, and when a data
byte times out (`R/TIMEOUT X`); the content of `RXBUF` is then any value (log 4), and the bytes received before are in no register. The instruction runs it
for 4 and 6 bytes, the only lengths that 92_eei_decisions.md D32 does not refuse (log 18). -/
def Obligations.ReadFails : Prop :=
  ∀ (s : State) (addr : Addr7) (len : Nat), 1 ≤ len → len ≤ 6 →
    (∀ a ackRest, a ≠ .ack → s.acks = a :: ackRest →
      ∃ t, (len = 4 ∨ len = 6 → exec (.read addr len) s = .next t) ∧ readTransaction addr len s = t ∧
        t = { s with
          trace := s.trace ++ .start :: .sent (addrByteR addr) a :: endSymbol a, acks := ackRest, ret := .busError,
          rxbuf := t.rxbuf, len := len, idx := 0, tmo := 1000, sclOut := .released, sdaOut := .released, pos := .closed, fresh := t.fresh }) ∧
    (∀ (vs : List Byte) ackRest byteRest, vs.length < len → s.acks = .ack :: ackRest → s.bytes = vs.map .byte ++ .timeout :: byteRest →
      ∃ t, (len = 4 ∨ len = 6 → exec (.read addr len) s = .next t) ∧ readTransaction addr len s = t ∧
        t = { s with
          trace := s.trace ++ .start :: .sent (addrByteR addr) .ack :: vs.map .receivedAck ++ [.receiveTimeout, .abort],
          acks := ackRest, bytes := byteRest, ret := .busError, rxbuf := t.rxbuf, len := len, idx := vs.length,
          tmo := 1000, sclOut := .released, sdaOut := .released, pos := .closed, fresh := t.fresh })

/-- 92_eei_decisions.md D32, which 20_memory.md R64 cites: WRITE of a number of bytes other than 2 and READ of a number other than 4 and 6 are refused by
the model; 40_bus_transport.md R133 and R134 say so of 0 and of more than 6 only. READ_REPLY is one READ of its `byteCount` (41_command_protocol.md R161) and
is refused where that READ is (log 18). -/
def Obligations.BadLengthsRefused : Prop :=
  ∀ (s : State) (addr : Addr7),
    (∀ bytes : List Byte, bytes.length ≠ 2 → exec (.write addr bytes) s = .refused (.badLength bytes.length)) ∧
    (∀ len : Nat, len ≠ 4 → len ≠ 6 →
      exec (.read addr len) s = .refused (.badLength len) ∧ exec (.readReply len) s = .refused (.badLength len))

/-- 30_encoding.md R96: bits 7:1 of the address byte are the device address and bit 0 is the direction, 0 for write and 1 for read. -/
def Obligations.AddressByteLayout : Prop :=
  ∀ a : Addr7, addrByteW a = (a.setWidth 8 <<< 1 ||| 0#8) ∧ addrByteR a = (a.setWidth 8 <<< 1 ||| 1#8)

/-- 40_bus_transport.md R133, R134: the address byte goes out after `S` and its answer is recorded; an `ACK` leads to the payload (ADDRB_W) or to the first
data byte (ADDRB_R), any other answer to the end of the transaction. The answer is the peer's, while `TMO` has not run out; a `TMO` of 0 makes it
`TIMEOUT` (R136; that the script's answer then stays is log 14). The lines hold any value (log 5). -/
def Obligations.AddressByteIsSent : Prop :=
  ∀ (s : State) (addr : Addr7) (a : Ack) (rest : List Ack), s.acks = a :: rest →
    (s.tmo ≠ 0 →
      (∃ t, exec (.addrbW addr) s = .next t ∧
        t = { s with
          trace := s.trace ++ [.sent (addrByteW addr) a], acks := rest, pos := if a = .ack then .payload 0 else .failing a,
          sclOut := t.sclOut, sdaOut := t.sdaOut, fresh := t.fresh }) ∧
      (∃ t, exec (.addrbR addr) s = .next t ∧
        t = { s with
          trace := s.trace ++ [.sent (addrByteR addr) a], acks := rest, pos := if a = .ack then .reading else .failing a,
          sclOut := t.sclOut, sdaOut := t.sdaOut, fresh := t.fresh })) ∧
    (s.tmo = 0 →
      (∃ t, exec (.addrbW addr) s = .next t ∧
        t = { s with
          trace := s.trace ++ [.sent (addrByteW addr) .timeout], pos := .failing .timeout,
          sclOut := t.sclOut, sdaOut := t.sdaOut, fresh := t.fresh }) ∧
      (∃ t, exec (.addrbR addr) s = .next t ∧
        t = { s with
          trace := s.trace ++ [.sent (addrByteR addr) .timeout], pos := .failing .timeout,
          sclOut := t.sclOut, sdaOut := t.sdaOut, fresh := t.fresh }))

/-! ## Command protocol -/

/-- 41_command_protocol.md R160, 30_encoding.md R97: SEND_CMD of any command puts its word into `TXBUF`, most significant byte first, issues one WRITE of those two
bytes to `DEV_ADDR`, and returns its outcome verbatim. That it does so for a rate index that is not below `N_RATES` too is the model's (log 29). -/
def Obligations.SendCommandWritesItsWord : Prop :=
  ∀ (s : State) (cmd : Command) (hi lo : Byte), commandWord s.cfg cmd = hi ++ lo →
    (∀ rest, s.acks = .ack :: .ack :: .ack :: rest →
      ∃ t, exec (.sendCmd cmd) s = .next t ∧
        t = { s with
          txbuf := ⟨hi, lo⟩, phase := .write, ret := .ok,
          trace := s.trace ++ [.start, .sent (addrByteW s.cfg.devAddr) .ack, .sent hi .ack, .sent lo .ack, .stop],
          acks := rest, tmo := 1000, sclOut := .released, sdaOut := .released, pos := .closed, fresh := t.fresh }) ∧
    (∀ a rest, a ≠ .ack → s.acks = a :: rest →
      ∃ t, exec (.sendCmd cmd) s = .next t ∧
        t = { s with
          txbuf := ⟨hi, lo⟩, phase := .write, ret := .busError,
          trace := s.trace ++ [.start, .sent (addrByteW s.cfg.devAddr) a] ++ endSymbol a,
          acks := rest, tmo := 1000, sclOut := .released, sdaOut := .released, pos := .closed, fresh := t.fresh }) ∧
    (∀ a rest, a ≠ .ack → s.acks = .ack :: a :: rest →
      ∃ t, exec (.sendCmd cmd) s = .next t ∧
        t = { s with
          txbuf := ⟨hi, lo⟩, phase := .write, ret := .busError,
          trace := s.trace ++ [.start, .sent (addrByteW s.cfg.devAddr) .ack, .sent hi a] ++ endSymbol a,
          acks := rest, tmo := 1000, sclOut := .released, sdaOut := .released, pos := .closed, fresh := t.fresh }) ∧
    (∀ a rest, a ≠ .ack → s.acks = .ack :: .ack :: a :: rest →
      ∃ t, exec (.sendCmd cmd) s = .next t ∧
        t = { s with
          txbuf := ⟨hi, lo⟩, phase := .write, ret := .busError,
          trace := s.trace ++ [.start, .sent (addrByteW s.cfg.devAddr) .ack, .sent hi .ack, .sent lo a] ++ endSymbol a,
          acks := rest, tmo := 1000, sclOut := .released, sdaOut := .released, pos := .closed, fresh := t.fresh })

/-- 30_encoding.md R97, R98, 41_command_protocol.md R160: each of the 24 command rows sends its word, most significant byte first and with no checksum byte, in one
acknowledged WRITE to `DEV_ADDR`. That a periodic row whose rate index is not below `N_RATES` does so too is the model's (log 29). -/
def Obligations.CommandRowsSendTheirWords : Prop :=
  ∀ (s : State) (i : Instr) (w : W16) (rest : List Ack), (i, w) ∈ commandRows s.cfg → s.acks = .ack :: .ack :: .ack :: rest →
    ∃ t, exec i s = .next t ∧
      t = { s with
        txbuf := ⟨w.extractLsb' 8 8, w.extractLsb' 0 8⟩, phase := .write, ret := .ok,
        trace := s.trace ++ [.start, .sent (addrByteW s.cfg.devAddr) .ack, .sent (w.extractLsb' 8 8) .ack, .sent (w.extractLsb' 0 8) .ack, .stop],
        acks := rest, tmo := 1000, sclOut := .released, sdaOut := .released, pos := .closed, fresh := t.fresh }

/-- 41_command_protocol.md R161: READ_REPLY of 4 or 6 bytes enters `P_READ` and is one READ of that many bytes from `DEV_ADDR`, whose outcome it returns;
where all bytes arrive they stand unparsed in `RXBUF`. -/
def Obligations.ReadReplyReadsTheBytes : Prop :=
  (∀ (s : State) (n : Nat), (n = 4 ∨ n = 6) → exec (.readReply n) s = exec (.read s.cfg.devAddr n) { s with phase := .read }) ∧
  ∀ (s : State) (vs : List Byte) (ackRest : List Ack) (byteRest : List PeerByte), (vs.length = 4 ∨ vs.length = 6) →
    s.acks = .ack :: ackRest → s.bytes = vs.map .byte ++ byteRest →
    ∃ t, exec (.readReply vs.length) s = .next t ∧ (∀ i, i < vs.length → rxGet t.rxbuf i = vs[i]?) ∧
      t = { s with
        phase := .read, trace := s.trace ++ .start :: .sent (addrByteR s.cfg.devAddr) .ack :: receivedSymbols vs ++ [.stop],
        acks := ackRest, bytes := byteRest, ret := .ok, rxbuf := t.rxbuf, len := vs.length, idx := vs.length,
        tmo := 1000, sclOut := .released, sdaOut := .released, pos := .closed, fresh := t.fresh }

/-- 41_command_protocol.md R162: DELAY enters `P_SETTLE` with `DLY` at `ms`; a tick takes one from it; the sequencer waits while it is not 0. -/
def Obligations.DelayCountsTicks : Prop :=
  ∀ (s : State) (ms : Nat),
    exec (.delay ms) s = .next { s with phase := .settle, dly := ms, ret := .none } ∧
    (∀ rest, s.phase = .settle → isOpen s.pos = false → s.inputs = .tick :: rest →
      step s = .next { s with inputs := rest, dly := s.dly - 1 }) ∧
    (∀ rest, s.phase = .settle → 0 < s.dly → s.inputs = .seq :: rest → step s = .next { s with inputs := rest })

/-! ## Checksum -/

/-- 42_checksum.md R180, R185: CRC8 returns the remainder of the 24-bit message modulo the polynomial 0x131, the seed combined with the first byte, and
changes nothing else; the rule's corner cases. -/
def Obligations.CrcIsTheRemainder : Prop :=
  (∀ (s : State) (b0 b1 seed : Byte), ∃ r : Byte,
    exec (.crc8 b0 b1 seed) s = .next { s with ret := .u8 r } ∧
    r.toNat = remainder131 16 (((b0.toNat ^^^ seed.toNat) <<< 16) ^^^ (b1.toNat <<< 8))) ∧
  crc8 0x00#8 0x00#8 0x00#8 = 0x00#8 ∧ crc8 0x00#8 0x00#8 0xFF#8 = 0x81#8 ∧ crc8 0xFF#8 0xFF#8 0xFF#8 = 0xAC#8 ∧ crc8 0xBE#8 0xEF#8 0xFF#8 = 0x92#8

/-- 42_checksum.md R186: the function is linear over exclusive-or apart from the seed, and a flip of any single bit of the data word, or of the
checksum byte, of a group that passes makes it fail. -/
def Obligations.SingleBitFlipsAreCaught : Prop :=
  (∀ b0 b1 e0 e1 seed : Byte, crc8 (b0 ^^^ e0) (b1 ^^^ e1) seed = crc8 b0 b1 seed ^^^ crc8 e0 e1 0x00#8) ∧
  (∀ (d0 d1 c : Byte) (k : Nat), groupOk d0 d1 c = true →
    (k < 8 → groupOk d0 (d1 ^^^ (1#8 <<< k)) c = false) ∧ (k < 8 → groupOk (d0 ^^^ (1#8 <<< k)) d1 c = false) ∧
    (k < 8 → groupOk d0 d1 (c ^^^ (1#8 <<< k)) = false))

/-- 42_checksum.md R181, R182: CHECK_GROUP compares `crc8` of the two data bytes with seed 0xFF to the checksum byte. -/
def Obligations.CheckGroupCompares : Prop :=
  (∀ (s : State) (d0 d1 c : Byte), exec (.checkGroup d0 d1 c) s = .next { s with ret := .bool (decide (crc8 d0 d1 0xFF#8 = c)) }) ∧
  groupOk 0x65#8 0x7E#8 0x44#8 = true ∧ groupOk 0x64#8 0x7E#8 0x44#8 = false ∧ crc8 0x64#8 0x7E#8 0xFF#8 = 0xB0#8

/-- 42_checksum.md R183: CHECK_FRAME returns `OK` and changes nothing else if both groups pass, and raises `ChecksumMismatch` if either fails;
the rule's corner cases. -/
def Obligations.CheckFrameDecides : Prop :=
  frameOk ⟨0x65#8, 0x7E#8, 0x44#8, 0x81#8, 0x20#8, 0xD0#8⟩ = true ∧ frameOk ⟨0x65#8, 0x7E#8, 0x44#8, 0x81#8, 0x20#8, 0xD1#8⟩ = false ∧
  frameOk ⟨0xFF#8, 0xFF#8, 0xFF#8, 0xFF#8, 0xFF#8, 0xFF#8⟩ = false ∧ frameOk ⟨0#8, 0#8, 0#8, 0#8, 0#8, 0#8⟩ = false ∧
  ∀ (s : State) (b0 b1 b2 b3 b4 b5 : Byte), s.rxbuf = ⟨b0, b1, b2, b3, b4, b5⟩ →
    (crc8 b0 b1 0xFF#8 = b2 → crc8 b3 b4 0xFF#8 = b5 → exec .checkFrame s = .next { s with ret := .ok }) ∧
    (crc8 b0 b1 0xFF#8 ≠ b2 ∨ crc8 b3 b4 0xFF#8 ≠ b5 → ∃ t, exec .checkFrame s = .next t ∧ aborted .checksumMismatch s t)

/-! ## Decoder -/

/-- 43_decoder.md R201, R204: CONV_T returns an integer that is nearer than a half to 100 times the exact value 175 * rawT / 65535 - 45 (stated over the
common denominator 65535), stored as s16, non-decreasing in `rawT`, with the rule's corner cases; it changes nothing else. -/
def Obligations.ConvTRoundsToNearest : Prop :=
  (∀ (s : State) (rawT : W16), ∃ t : Int, exec (.convT rawT) s = .next { s with ret := .s16 (BitVec.ofInt 16 t) } ∧
    (BitVec.ofInt 16 t).toInt = t ∧ t = (17500 * (rawT.toNat : Int) + 32767) / 65535 - 4500 ∧
    2 * (65535 * (t + 4500) - 17500 * (rawT.toNat : Int)) < 65535 ∧ -65535 < 2 * (65535 * (t + 4500) - 17500 * (rawT.toNat : Int))) ∧
  (∀ a b : W16, a.toNat ≤ b.toNat → tCenti a ≤ tCenti b) ∧
  tCenti 0#16 = -4500 ∧ tCenti 1#16 = -4500 ∧ tCenti 65535#16 = 13000 ∧ tCenti 16852#16 = 0 ∧ tCenti 0x6666#16 = 2500 ∧ tCenti 0x657E#16 = 2438

/-- 43_decoder.md R202, R205: CONV_RH returns a natural number nearer than a half to 100 times the exact value 100 * rawH / 65535, stored as u16,
non-decreasing in `rawH`, with the rule's corner cases; it changes nothing else. -/
def Obligations.ConvRhRoundsToNearest : Prop :=
  (∀ (s : State) (rawH : W16), ∃ h : Nat, exec (.convRh rawH) s = .next { s with ret := .u16 (BitVec.ofNat 16 h) } ∧
    (BitVec.ofNat 16 h).toNat = h ∧ h = (10000 * rawH.toNat + 32767) / 65535 ∧ h ≤ 10000 ∧
    2 * (65535 * (h : Int) - 10000 * (rawH.toNat : Int)) < 65535 ∧ -65535 < 2 * (65535 * (h : Int) - 10000 * (rawH.toNat : Int))) ∧
  (∀ a b : W16, a.toNat ≤ b.toNat → hCenti a ≤ hCenti b) ∧
  hCenti 0#16 = 0 ∧ hCenti 1#16 = 0 ∧ hCenti 65535#16 = 10000 ∧ hCenti 65534#16 = 10000 ∧ hCenti 0x6666#16 = 4000 ∧ hCenti 0x8000#16 = 5000 ∧
  hCenti 0x8120#16 = 5044

/-- 43_decoder.md R206, R207: T_OK returns whether the exact temperature 175 * rawT / 65535 - 45 lies in [-20, 125], which is 9363 ≤ rawT ≤ 63662. -/
def Obligations.TemperatureBounds : Prop :=
  (∀ (s : State) (rawT : W16), exec (.tOk rawT) s = .next { s with ret := .bool (decide (9363 ≤ rawT.toNat ∧ rawT.toNat ≤ 63662)) }) ∧
  (∀ rawT : W16, (9363 ≤ rawT.toNat ∧ rawT.toNat ≤ 63662) ↔
    (-20 * 65535 ≤ 175 * (rawT.toNat : Int) - 45 * 65535 ∧ 175 * (rawT.toNat : Int) - 45 * 65535 ≤ 125 * 65535)) ∧
  tOk 9362#16 = false ∧ tCenti 9362#16 = -2000 ∧ tOk 63663#16 = false ∧ tCenti 63663#16 = 12500 ∧ tOk 0#16 = false ∧ tOk 65535#16 = false

/-- 43_decoder.md R209: H_OK returns true for every raw word. -/
def Obligations.HumidityAlwaysInBounds : Prop :=
  ∀ (s : State) (rawH : W16), exec (.hOk rawH) s = .next { s with ret := .bool true }

/-- 43_decoder.md R208: every accepted temperature is -2000 to 12500 in hundredths, fits s16, and both bounds are reached. -/
def Obligations.AcceptedTemperatureRange : Prop :=
  (∀ rawT : W16, tOk rawT = true → -2000 ≤ tCenti rawT ∧ tCenti rawT ≤ 12500 ∧ (tWord rawT).toInt = tCenti rawT) ∧
  tOk 9363#16 = true ∧ tCenti 9363#16 = -2000 ∧ tOk 63662#16 = true ∧ tCenti 63662#16 = 12500

/-- 43_decoder.md R210: DECODE_MEAS returns `OK(T_centi, H_centi, rawT, rawH)` and changes nothing else if `rawT` is in bounds, and raises `ImplausibleReading`
otherwise. -/
def Obligations.DecodeMeasDecides : Prop :=
  ∀ (s : State) (b0 b1 b2 b3 b4 b5 : Byte) (rawT rawH : W16), s.rxbuf = ⟨b0, b1, b2, b3, b4, b5⟩ →
    rawT.toNat = 256 * b0.toNat + b1.toNat → rawH.toNat = 256 * b3.toNat + b4.toNat →
    (9363 ≤ rawT.toNat → rawT.toNat ≤ 63662 →
      exec .decodeMeas s = .next { s with
        ret := .meas (BitVec.ofInt 16 ((17500 * rawT.toNat + 32767) / 65535 - 4500)) (BitVec.ofNat 16 ((10000 * rawH.toNat + 32767) / 65535)) rawT rawH }) ∧
    (rawT.toNat < 9363 ∨ 63662 < rawT.toNat → ∃ t, exec .decodeMeas s = .next t ∧ aborted .implausibleReading s t)

/-- 43_decoder.md R212, R214: DECODE_SERIAL_raw4 composes bytes 0 to 3 big-endian, computes no checksum, and raises `InvalidResponse` on all ones only. -/
def Obligations.DecodeSerialRaw4Decides : Prop :=
  ∀ (s : State) (b0 b1 b2 b3 b4 b5 : Byte) (sn : W32), s.rxbuf = ⟨b0, b1, b2, b3, b4, b5⟩ →
    sn.toNat = 16777216 * b0.toNat + 65536 * b1.toNat + 256 * b2.toNat + b3.toNat →
    (sn ≠ 0xFFFFFFFF#32 → exec .decodeSerialRaw4 s = .next { s with ret := .serial sn }) ∧
    (sn = 0xFFFFFFFF#32 → ∃ t, exec .decodeSerialRaw4 s = .next t ∧ aborted .invalidResponse s t)

/-- 43_decoder.md R213: DECODE_SERIAL_checked6 tests the checksums first, then composes bytes 0, 1, 3, 4 and tests the sentinel. -/
def Obligations.DecodeSerialChecked6Decides : Prop :=
  ∀ (s : State) (b0 b1 b2 b3 b4 b5 : Byte) (sn : W32), s.rxbuf = ⟨b0, b1, b2, b3, b4, b5⟩ →
    sn.toNat = 16777216 * b0.toNat + 65536 * b1.toNat + 256 * b3.toNat + b4.toNat →
    (crc8 b0 b1 0xFF#8 ≠ b2 ∨ crc8 b3 b4 0xFF#8 ≠ b5 →
      ∃ t, exec .decodeSerialChecked6 s = .next t ∧ aborted .checksumMismatch s t) ∧
    (crc8 b0 b1 0xFF#8 = b2 → crc8 b3 b4 0xFF#8 = b5 → sn ≠ 0xFFFFFFFF#32 →
      exec .decodeSerialChecked6 s = .next { s with ret := .serial sn }) ∧
    (crc8 b0 b1 0xFF#8 = b2 → crc8 b3 b4 0xFF#8 = b5 → sn = 0xFFFFFFFF#32 →
      ∃ t, exec .decodeSerialChecked6 s = .next t ∧ aborted .invalidResponse s t)

/-! ## Whole operations

Each statement starts an operation from a quiescent state (70_reset_and_hazards.md R306) with no other agent's move pending, gives the peer's answers, and says what
some number of steps leaves: the complete list of changed fields. The Time agent's ticks arrive by themselves (log 7). -/

/-- 44_session_ops.md R233: INIT with its WRITE acknowledged ends with `MODE = Idle`, `ERR = 0`, `DONE`; it touches no result register. -/
def Obligations.InitRunsToIdle : Prop :=
  ∀ (s : State) (hi lo : Byte) (rest : List Ack), Quiescent s → s.inputs = [] → s.cfg.cmdSoftReset = hi ++ lo →
    s.acks = .ack :: .ack :: .ack :: rest →
    ∃ s1 t, exec .init s = .next s1 ∧ s1.busy = true ∧ reaches s1 t ∧
      t = { s with
        done := true, err := .ok, mode := .idle, lop := ⟨1#3, 0#3, 0#2⟩, txbuf := ⟨hi, lo⟩, acks := rest,
        trace := s.trace ++ [.start, .sent (addrByteW s.cfg.devAddr) .ack, .sent hi .ack, .sent lo .ack, .stop],
        rxbuf := t.rxbuf, fresh := t.fresh }

/-- 44_session_ops.md R236: PSTART, where it is admitted, with its WRITE acknowledged ends with `MODE = PeriodicMeasuring`. -/
def Obligations.PstartRunsToPeriodic : Prop :=
  ∀ (s : State) (rate : BitVec 3) (rep : Rep) (hi lo : Byte) (rest : List Ack), Quiescent s → s.inputs = [] →
    s.cfg.hasPeriodicStart = true → rate.toNat < s.cfg.nRates → s.mode ≠ .uninitialized →
    commandWord s.cfg (.periodic rep rate) = hi ++ lo → s.acks = .ack :: .ack :: .ack :: rest →
    ∃ s1 t, exec (.pstart rate rep) s = .next s1 ∧ s1.busy = true ∧ reaches s1 t ∧
      t = { s with
        done := true, err := .ok, mode := .periodicMeasuring, lop := ⟨4#3, rate, repCode rep⟩, txbuf := ⟨hi, lo⟩, acks := rest,
        trace := s.trace ++ [.start, .sent (addrByteW s.cfg.devAddr) .ack, .sent hi .ack, .sent lo .ack, .stop],
        rxbuf := t.rxbuf, fresh := t.fresh }

/-- 44_session_ops.md R233 to R236, 60_exceptions.md R265, R266: where the command's WRITE has returned `BusError`, the sequencer's next step is the abort, in place
of the settle delay. So every operation whose command is not acknowledged ends with `ERR = 1` (`BusError`) and no symbol after that one transaction; the
operation's own results are 0 and invalid, the other kind's are unchanged, and `MODE` is unchanged but for INIT, which leaves `Uninitialized`. -/
def Obligations.CommandFailureEndsOperation : Prop :=
  (∀ (s : State) (rest : List Move), ((s.inputs = [] ∧ rest = []) ∨ s.inputs = .seq :: rest) →
    s.phase = .write → s.pos = .closed → s.ret = .busError →
    ∃ t, step s = .next t ∧ aborted .busError { s with inputs := rest } t) ∧
  ∀ (s : State) (i : Instr) (op : HostOp) (before after : List Byte) (b : Byte) (a : Ack) (rest : List Ack),
    (i, op) ∈ [(Instr.init, HostOp.init), (.rdsn, .rdsn), (.measH, .meas .high), (.measM, .meas .medium), (.measL, .meas .low)] ∨
      (∃ rate rep, i = .pstart rate rep ∧ op = .pstart rate rep ∧ admitted op s = true) →
    Quiescent s → s.inputs = [] → addrByteW s.cfg.devAddr :: commandBytes s.cfg (commandOf op) = before ++ b :: after → a ≠ .ack →
    s.acks = List.replicate before.length .ack ++ a :: rest →
    ∃ s1 t, exec i s = .next s1 ∧ s1.busy = true ∧ reaches s1 t ∧
      t = { clearOwn op s with
        done := true, err := .busError, lop := latchOf op, txbuf := txOf (commandWord s.cfg (commandOf op)), acks := rest,
        trace := s.trace ++ .start :: before.map (.sent · .ack) ++ .sent b a :: endSymbol a, rxbuf := t.rxbuf, fresh := t.fresh }

/-- 44_session_ops.md R235: MEAS with its command acknowledged and a reply of six bytes. Both checksums right and the temperature in bounds: the four
registers hold the conversion and the raw words, `MVALID = 1`, `ERR = 0`. A wrong checksum: `ERR = 2`, whatever the words (60_exceptions.md R265). Right
checksums and a temperature out of bounds: `ERR = 4`. In both errors the four registers and `MVALID` are 0. `MODE` and the serial number are untouched. -/
def Obligations.MeasRunsToItsResult : Prop :=
  ∀ (s : State) (i : Instr) (rep : Rep) (b0 b1 b2 b3 b4 b5 : Byte) (rawT rawH : W16) (ackRest : List Ack) (byteRest : List PeerByte),
    (i, rep) ∈ [(Instr.measH, Rep.high), (.measM, .medium), (.measL, .low)] → Quiescent s → s.inputs = [] →
    s.acks = .ack :: .ack :: .ack :: .ack :: ackRest → s.bytes = [b0, b1, b2, b3, b4, b5].map .byte ++ byteRest →
    rawT.toNat = 256 * b0.toNat + b1.toNat → rawH.toNat = 256 * b3.toNat + b4.toNat →
    ∃ s1 t, exec i s = .next s1 ∧ s1.busy = true ∧ reaches s1 t ∧
      ((crc8 b0 b1 0xFF#8 = b2 ∧ crc8 b3 b4 0xFF#8 = b5 ∧ 9363 ≤ rawT.toNat ∧ rawT.toNat ≤ 63662) →
        t.err = .ok ∧ t.mvalid = true ∧ t.temp = tWord rawT ∧ t.hum = hWord rawH ∧ t.rawt = rawT ∧ t.rawh = rawH) ∧
      ((crc8 b0 b1 0xFF#8 ≠ b2 ∨ crc8 b3 b4 0xFF#8 ≠ b5) →
        t.err = .checksumMismatch ∧ t.mvalid = false ∧ t.temp = 0#16 ∧ t.hum = 0#16 ∧ t.rawt = 0#16 ∧ t.rawh = 0#16) ∧
      ((crc8 b0 b1 0xFF#8 = b2 ∧ crc8 b3 b4 0xFF#8 = b5 ∧ (rawT.toNat < 9363 ∨ 63662 < rawT.toNat)) →
        t.err = .implausibleReading ∧ t.mvalid = false ∧ t.temp = 0#16 ∧ t.hum = 0#16 ∧ t.rawt = 0#16 ∧ t.rawh = 0#16) ∧
      t = { s with
        done := true, err := t.err, mvalid := t.mvalid, temp := t.temp, hum := t.hum, rawt := t.rawt, rawh := t.rawh,
        lop := latchOf (.meas rep), txbuf := txOf (s.cfg.cmdSsStretch.at rep), rxbuf := t.rxbuf, len := 6, idx := 6, acks := ackRest,
        bytes := byteRest, trace := s.trace ++ exchange s.cfg.devAddr (s.cfg.cmdSsStretch.at rep) [b0, b1, b2, b3, b4, b5],
        fresh := t.fresh }

/-- 44_session_ops.md R234, `SERIAL_MODE = raw4`: RDSN with its command acknowledged and a reply of four bytes ends with `SERIAL` their big-endian
composition and `SNVALID = 1`, or with `ERR = 3` and `SERIAL = 0` when they are all ones. `MODE` and the measurement registers are untouched. -/
def Obligations.RdsnRaw4RunsToItsResult : Prop :=
  ∀ (s : State) (b0 b1 b2 b3 : Byte) (sn : W32) (ackRest : List Ack) (byteRest : List PeerByte),
    s.cfg.serialMode = .raw4 → Quiescent s → s.inputs = [] →
    s.acks = .ack :: .ack :: .ack :: .ack :: ackRest → s.bytes = [b0, b1, b2, b3].map .byte ++ byteRest →
    sn.toNat = 16777216 * b0.toNat + 65536 * b1.toNat + 256 * b2.toNat + b3.toNat →
    ∃ s1 t, exec .rdsn s = .next s1 ∧ s1.busy = true ∧ reaches s1 t ∧
      (sn ≠ 0xFFFFFFFF#32 → t.err = .ok ∧ t.snvalid = true ∧ t.serial = sn) ∧
      (sn = 0xFFFFFFFF#32 → t.err = .invalidResponse ∧ t.snvalid = false ∧ t.serial = 0#32) ∧
      t = { s with
        done := true, err := t.err, snvalid := t.snvalid, serial := t.serial, lop := latchOf .rdsn, txbuf := txOf s.cfg.cmdReadSerial,
        rxbuf := t.rxbuf, len := 4, idx := 4, acks := ackRest, bytes := byteRest,
        trace := s.trace ++ exchange s.cfg.devAddr s.cfg.cmdReadSerial [b0, b1, b2, b3], fresh := t.fresh }

/-- 44_session_ops.md R234, `SERIAL_MODE = checked6`: RDSN reads six bytes; the checksums are tested before the sentinel. -/
def Obligations.RdsnChecked6RunsToItsResult : Prop :=
  ∀ (s : State) (b0 b1 b2 b3 b4 b5 : Byte) (sn : W32) (ackRest : List Ack) (byteRest : List PeerByte),
    s.cfg.serialMode = .checked6 → Quiescent s → s.inputs = [] →
    s.acks = .ack :: .ack :: .ack :: .ack :: ackRest → s.bytes = [b0, b1, b2, b3, b4, b5].map .byte ++ byteRest →
    sn.toNat = 16777216 * b0.toNat + 65536 * b1.toNat + 256 * b3.toNat + b4.toNat →
    ∃ s1 t, exec .rdsn s = .next s1 ∧ s1.busy = true ∧ reaches s1 t ∧
      ((crc8 b0 b1 0xFF#8 ≠ b2 ∨ crc8 b3 b4 0xFF#8 ≠ b5) → t.err = .checksumMismatch ∧ t.snvalid = false ∧ t.serial = 0#32) ∧
      ((crc8 b0 b1 0xFF#8 = b2 ∧ crc8 b3 b4 0xFF#8 = b5 ∧ sn ≠ 0xFFFFFFFF#32) → t.err = .ok ∧ t.snvalid = true ∧ t.serial = sn) ∧
      ((crc8 b0 b1 0xFF#8 = b2 ∧ crc8 b3 b4 0xFF#8 = b5 ∧ sn = 0xFFFFFFFF#32) →
        t.err = .invalidResponse ∧ t.snvalid = false ∧ t.serial = 0#32) ∧
      t = { s with
        done := true, err := t.err, snvalid := t.snvalid, serial := t.serial, lop := latchOf .rdsn, txbuf := txOf s.cfg.cmdReadSerial,
        rxbuf := t.rxbuf, len := 6, idx := 6, acks := ackRest, bytes := byteRest,
        trace := s.trace ++ exchange s.cfg.devAddr s.cfg.cmdReadSerial [b0, b1, b2, b3, b4, b5], fresh := t.fresh }

/-- 60_exceptions.md R265, 90_conflicts.md C6: an operation whose READ fails (the address is not acknowledged, or a byte times out after any bytes) ends with
`ERR = 1`, whatever bytes arrived before, and where the address is not acknowledged whatever bytes the peer would have sent. The operation's own
results are 0 and invalid, the other kind's and `MODE` are unchanged. -/
def Obligations.ReplyFailureEndsOperation : Prop :=
  ∀ (s : State) (i : Instr) (op : HostOp) (n : Nat),
    (i, op) ∈ [(Instr.rdsn, HostOp.rdsn), (.measH, .meas .high), (.measM, .meas .medium), (.measL, .meas .low)] →
    replyLength s.cfg op = some n → Quiescent s → s.inputs = [] →
    (∀ a ackRest, a ≠ .ack → s.acks = .ack :: .ack :: .ack :: a :: ackRest →
      ∃ s1 t, exec i s = .next s1 ∧ s1.busy = true ∧ reaches s1 t ∧
        t = { clearOwn op s with
          done := true, err := .busError, lop := latchOf op, txbuf := txOf (commandWord s.cfg (commandOf op)), rxbuf := t.rxbuf, len := n,
          idx := 0, acks := ackRest, fresh := t.fresh,
          trace := s.trace ++ commandSymbols s.cfg.devAddr (commandWord s.cfg (commandOf op)) ++
            .start :: .sent (addrByteR s.cfg.devAddr) a :: endSymbol a }) ∧
    (∀ (vs : List Byte) ackRest byteRest, vs.length < n → s.acks = .ack :: .ack :: .ack :: .ack :: ackRest →
      s.bytes = vs.map .byte ++ .timeout :: byteRest →
      ∃ s1 t, exec i s = .next s1 ∧ s1.busy = true ∧ reaches s1 t ∧
        t = { clearOwn op s with
          done := true, err := .busError, lop := latchOf op, txbuf := txOf (commandWord s.cfg (commandOf op)), rxbuf := t.rxbuf, len := n,
          idx := vs.length, acks := ackRest, bytes := byteRest, fresh := t.fresh,
          trace := s.trace ++ commandSymbols s.cfg.devAddr (commandWord s.cfg (commandOf op)) ++
            .start :: .sent (addrByteR s.cfg.devAddr) .ack :: vs.map .receivedAck ++ [.receiveTimeout, .abort] })

/-! ## The whole machine -/

/-- 10_state.md R38, 70_reset_and_hazards.md R291: what the host reads after reset, and the hidden state the table gives a value. -/
def Obligations.ResetValues : Prop :=
  State.reset.mode = .uninitialized ∧ statusWord State.reset = 0x00#8 ∧ errCode State.reset.err = 0#8 ∧ State.reset.temp = 0#16 ∧
  State.reset.hum = 0#16 ∧ State.reset.rawt = 0#16 ∧ State.reset.rawh = 0#16 ∧ State.reset.serial = 0#32 ∧
  readReg State.reset 0 = some (.b8 0#8) ∧ State.reset.phase = .idle ∧ State.reset.dly = 0 ∧ State.reset.tmo = 0 ∧
  State.reset.sclOut = .released ∧ State.reset.sdaOut = .released

/-- The invariant of the block holds after reset. -/
def Obligations.ResetSatisfiesInvariant : Prop := Inv State.reset

/-- Every step of every agent keeps the invariant of the block. -/
def Obligations.StepKeepsInvariant : Prop := ∀ s t : State, Inv s → step s = .next t → Inv t

/-- From a state of the invariant no run ends in a fault, whatever the agents do: every operation stays on its path (44_session_ops.md R240). The only
fault is `offPath`, which is the model's (log 19). -/
def Obligations.EveryRunIsSafe : Prop := ∀ s : State, Inv s → Safe s

/-- From a state of the invariant a step is refused only for a host access to a register above 8 (70_reset_and_hazards.md R305). -/
def Obligations.OnlyBadRegistersAreRefused : Prop :=
  ∀ (s : State) (r : Refusal), Inv s → step s = .refused r →
    ∃ n, 8 < n ∧ r = .noSuchRegister n ∧ (s.inputs.head? = some (.hostRead n) ∨ ∃ v, s.inputs.head? = some (.hostWrite n v))

/-- 44_session_ops.md R241: every started operation reaches `complete`: from any state of the invariant with no other agent's move pending, at most 40
steps and the ticks of the delays later `BUSY` is 0, and `DONE` is 1 if an operation was running. The ticks that R241 asks for are delivered here by
the model's own order of moves (log 7), and the bound in steps is the model's (logs 11 and 30). -/
def Obligations.EveryOperationCompletes : Prop :=
  ∀ s : State, Inv s → s.inputs = [] →
    ∃ k t, k ≤ 40 + s.dly + s.cfg.tSettleResetMs + s.cfg.tSettleSerialMs + s.cfg.tSettleMeasMs ∧ Host.Core.run core k s = .next t ∧
      t.busy = false ∧ (s.busy = true → t.done = true)

/-- 40_bus_transport.md R141: the sub-operation at which the sequencer stands, run as one step, is what its single symbols and phase transitions reach
when no other agent moves between them. The bound of 10 steps counts the model's own steps (logs 11 and 30). -/
def Obligations.SymbolStepsRefineSubOperations : Prop :=
  ∀ s t : State, Inv s → s.inputs = [] → subStep s = .next t → ∃ k, k ≤ 10 ∧ Host.Core.run core k s = .next t

/-- 20_memory.md R69: between an operation's start step and its `complete` step, whatever the agents do but the block's reset, nothing that the host reads
changes, and `LOP` (10_state.md R31) is constant. -/
def Obligations.HostSeesNothingWhileBusy : Prop :=
  ∀ s t : State, Inv s → s.busy = true → step s = .next t → t.busy = true →
    (∀ n, readReg t n = readReg s n) ∧ t.lop = s.lop ∧ t.cfg = s.cfg

/-- 44_session_ops.md R232, 60_exceptions.md R266, 70_reset_and_hazards.md R306: a step that ends an operation, other than the block's reset, leaves `DONE = 1` and a
quiescent block and keeps `LOP`; the results of the other kind are untouched; the operation's own valid bit is 1 exactly if `ERR` is 0, and with an error its
own results are 0. -/
def Obligations.EveryEndIsComplete : Prop :=
  ∀ (s t : State) (op : HostOp), Inv s → s.busy = true → latched s.lop = some op → s.inputs.head? ≠ some .rst → step s = .next t →
    t.busy = false →
    t.done = true ∧ Quiescent t ∧ t.lop = s.lop ∧ t.err ≠ .illegalOp ∧
    ((∀ rep, op ≠ .meas rep) → t.mvalid = s.mvalid ∧ t.temp = s.temp ∧ t.hum = s.hum ∧ t.rawt = s.rawt ∧ t.rawh = s.rawh) ∧
    (op ≠ .rdsn → t.snvalid = s.snvalid ∧ t.serial = s.serial) ∧
    (∀ rep, op = .meas rep → (t.mvalid = true ↔ t.err = .ok) ∧
      (t.err ≠ .ok → t.temp = 0#16 ∧ t.hum = 0#16 ∧ t.rawt = 0#16 ∧ t.rawh = 0#16)) ∧
    (op = .rdsn → (t.snvalid = true ↔ t.err = .ok) ∧ (t.err ≠ .ok → t.serial = 0#32))

/-- 44_session_ops.md R238, 10_state.md R39: the complete list of the steps that change `MODE`. -/
def Obligations.ModeChanges : Prop :=
  ∀ s t : State, Inv s → step s = .next t → t.mode ≠ s.mode →
    (s.inputs.head? = some .rst ∧ t.mode = .uninitialized) ∨
    (s.busy = false ∧ t.busy = true ∧ latched t.lop = some .init ∧ t.mode = .uninitialized) ∨
    (s.busy = true ∧ t.busy = false ∧ t.err = .ok ∧ latched s.lop = some .init ∧ t.mode = .idle) ∨
    (s.busy = true ∧ t.busy = false ∧ t.err = .ok ∧ (∃ rate rep, latched s.lop = some (.pstart rate rep)) ∧ t.mode = .periodicMeasuring)

/-- 20_memory.md R74, 41_command_protocol.md R162: while the settle delay runs, only a tick takes one from `DLY` and only the block's reset leaves `P_SETTLE`;
no symbol is emitted. -/
def Obligations.SettleDelayIsNotShortened : Prop :=
  ∀ s t : State, Inv s → s.phase = .settle → 0 < s.dly → step s = .next t → s.inputs.head? ≠ some .rst →
    t.phase = .settle ∧ t.trace = s.trace ∧ t.sclOut = .released ∧ t.sdaOut = .released ∧
    (t.dly = s.dly ∨ (t.dly + 1 = s.dly ∧ (s.inputs = [] ∨ s.inputs.head? = some .tick)))

/-- 20_memory.md R68, 60_exceptions.md R266: the bus trace only grows, and the parameters never change. -/
def Obligations.TraceOnlyGrows : Prop :=
  ∀ s t : State, step s = .next t → s.trace <+: t.trace ∧ t.cfg = s.cfg

/-- 70_reset_and_hazards.md R292: the block's reset in any state gives the reset values, without `DONE` and without `P`; the trace records `X` if a transaction
was open. The parameters and the other agents' data stay (log 21); the registers without a reset value take those of log 3. -/
def Obligations.ResetAbandonsTheOperation : Prop :=
  ∀ (s : State) (rest : List Move), s.inputs = .rst :: rest →
    step s = .next { State.reset with
      cfg := s.cfg, trace := s.trace ++ (if isOpen s.pos then [.abort] else []), inputs := rest, acks := s.acks, bytes := s.bytes,
      fresh := s.fresh, reads := s.reads }

/-- 10_state.md R35, 40_bus_transport.md R136: a tick takes one from `TMO` while a transaction is open, and once `TMO` is 0 the pending question is answered
`TIMEOUT`: the payload byte that is due goes out and is answered so, or the byte to be received does not arrive. That the peer's script keeps its answer
is the model's (log 14), and the lines hold any value (log 5). The address byte is AddressByteIsSent's. -/
def Obligations.TransactionTimesOut : Prop :=
  ∀ (s : State) (rest : List Move),
    (s.inputs = .tick :: rest → isOpen s.pos = true → s.phase ≠ .settle → step s = .next { s with inputs := rest, tmo := s.tmo - 1 }) ∧
    (∀ b, s.inputs = .seq :: rest → s.tmo = 0 → s.phase = .write →
      ((s.pos = .payload 0 ∧ b = s.txbuf.b0) ∨ (s.pos = .payload 1 ∧ b = s.txbuf.b1)) →
      ∃ t, step s = .next t ∧
        t = { s with
          inputs := rest, trace := s.trace ++ [.sent b .timeout], pos := .failing .timeout, sclOut := t.sclOut, sdaOut := t.sdaOut,
          fresh := t.fresh }) ∧
    (s.inputs = .seq :: rest → s.tmo = 0 → s.phase = .read → s.pos = .reading → s.idx < s.len →
      ∃ t, step s = .next t ∧
        t = { s with
          inputs := rest, trace := s.trace ++ [.receiveTimeout], pos := .failing .timeout, sclOut := t.sclOut, sdaOut := t.sdaOut,
          fresh := t.fresh })

/-- 41_command_protocol.md R165, 44_session_ops.md R233 to R236, R240: which settle delay follows which command. Where the command's WRITE has returned
`OK`, the sequencer's step enters `P_SETTLE` with `DLY` at `T_SETTLE_SERIAL_MS` for RDSN, at `T_SETTLE_MEAS_MS` for MEAS and at `T_SETTLE_RESET_MS` for
INIT where that is not 0; PSTART, and INIT where it is 0, complete at once. Once `DLY` is 0 RDSN and MEAS go on to `P_READ` and INIT completes. The
defaults of the three parameters (00_scope.md R6). -/
def Obligations.SettleDelayFollowsItsCommand : Prop :=
  (Config.default.tSettleSerialMs = 500 ∧ Config.default.tSettleMeasMs = 50 ∧ Config.default.tSettleResetMs = 0) ∧
  ∀ (s : State) (rest : List Move) (op : HostOp), ((s.inputs = [] ∧ rest = []) ∨ s.inputs = .seq :: rest) → latched s.lop = some op →
    (s.phase = .write → s.pos = .closed → s.ret = .ok →
      (op = .rdsn → step s = .next { s with inputs := rest, phase := .settle, dly := s.cfg.tSettleSerialMs, ret := .none }) ∧
      (∀ rep, op = .meas rep → step s = .next { s with inputs := rest, phase := .settle, dly := s.cfg.tSettleMeasMs, ret := .none }) ∧
      (op = .init → s.cfg.tSettleResetMs ≠ 0 →
        step s = .next { s with inputs := rest, phase := .settle, dly := s.cfg.tSettleResetMs, ret := .none }) ∧
      (op = .init → s.cfg.tSettleResetMs = 0 → step s = .next (complete .ok { s with inputs := rest, mode := .idle })) ∧
      (∀ rate rep, op = .pstart rate rep → step s = .next (complete .ok { s with inputs := rest, mode := .periodicMeasuring }))) ∧
    (s.phase = .settle → s.dly = 0 →
      ((op = .rdsn ∨ ∃ rep, op = .meas rep) → step s = .next { s with inputs := rest, phase := .read, pos := .closed, ret := .none }) ∧
      (op = .init → step s = .next (complete .ok { s with inputs := rest, mode := .idle })))
end

