-- ==== Sys2Proof/Laws/State.lean ====
section
/-! SUPPORT. One lemma per field per update of the state: what each named operation writes and what it leaves. -/

namespace Sys2Proof.Machine

section emit

variable (x : BusSym) (s : State)

@[simp] theorem emit_cfg : (emit x s).cfg = s.cfg := rfl
@[simp] theorem emit_busy : (emit x s).busy = s.busy := rfl
@[simp] theorem emit_done : (emit x s).done = s.done := rfl
@[simp] theorem emit_mvalid : (emit x s).mvalid = s.mvalid := rfl
@[simp] theorem emit_snvalid : (emit x s).snvalid = s.snvalid := rfl
@[simp] theorem emit_err : (emit x s).err = s.err := rfl
@[simp] theorem emit_mode : (emit x s).mode = s.mode := rfl
@[simp] theorem emit_temp : (emit x s).temp = s.temp := rfl
@[simp] theorem emit_hum : (emit x s).hum = s.hum := rfl
@[simp] theorem emit_rawt : (emit x s).rawt = s.rawt := rfl
@[simp] theorem emit_rawh : (emit x s).rawh = s.rawh := rfl
@[simp] theorem emit_serial : (emit x s).serial = s.serial := rfl
@[simp] theorem emit_phase : (emit x s).phase = s.phase := rfl
@[simp] theorem emit_lop : (emit x s).lop = s.lop := rfl
@[simp] theorem emit_txbuf : (emit x s).txbuf = s.txbuf := rfl
@[simp] theorem emit_rxbuf : (emit x s).rxbuf = s.rxbuf := rfl
@[simp] theorem emit_len : (emit x s).len = s.len := rfl
@[simp] theorem emit_idx : (emit x s).idx = s.idx := rfl
@[simp] theorem emit_dly : (emit x s).dly = s.dly := rfl
@[simp] theorem emit_tmo : (emit x s).tmo = s.tmo := rfl
@[simp] theorem emit_sclOut : (emit x s).sclOut = s.sclOut := rfl
@[simp] theorem emit_sdaOut : (emit x s).sdaOut = s.sdaOut := rfl
@[simp] theorem emit_pos : (emit x s).pos = s.pos := rfl
@[simp] theorem emit_trace : (emit x s).trace = s.trace ++ [x] := rfl
@[simp] theorem emit_ret : (emit x s).ret = s.ret := rfl
@[simp] theorem emit_inputs : (emit x s).inputs = s.inputs := rfl
@[simp] theorem emit_acks : (emit x s).acks = s.acks := rfl
@[simp] theorem emit_bytes : (emit x s).bytes = s.bytes := rfl
@[simp] theorem emit_fresh : (emit x s).fresh = s.fresh := rfl
@[simp] theorem emit_reads : (emit x s).reads = s.reads := rfl

end emit

section release

variable (s : State)

@[simp] theorem release_cfg : (release s).cfg = s.cfg := rfl
@[simp] theorem release_busy : (release s).busy = s.busy := rfl
@[simp] theorem release_done : (release s).done = s.done := rfl
@[simp] theorem release_mvalid : (release s).mvalid = s.mvalid := rfl
@[simp] theorem release_snvalid : (release s).snvalid = s.snvalid := rfl
@[simp] theorem release_err : (release s).err = s.err := rfl
@[simp] theorem release_mode : (release s).mode = s.mode := rfl
@[simp] theorem release_temp : (release s).temp = s.temp := rfl
@[simp] theorem release_hum : (release s).hum = s.hum := rfl
@[simp] theorem release_rawt : (release s).rawt = s.rawt := rfl
@[simp] theorem release_rawh : (release s).rawh = s.rawh := rfl
@[simp] theorem release_serial : (release s).serial = s.serial := rfl
@[simp] theorem release_phase : (release s).phase = s.phase := rfl
@[simp] theorem release_lop : (release s).lop = s.lop := rfl
@[simp] theorem release_txbuf : (release s).txbuf = s.txbuf := rfl
@[simp] theorem release_rxbuf : (release s).rxbuf = s.rxbuf := rfl
@[simp] theorem release_len : (release s).len = s.len := rfl
@[simp] theorem release_idx : (release s).idx = s.idx := rfl
@[simp] theorem release_dly : (release s).dly = s.dly := rfl
@[simp] theorem release_tmo : (release s).tmo = s.tmo := rfl
@[simp] theorem release_sclOut : (release s).sclOut = Line.released := rfl
@[simp] theorem release_sdaOut : (release s).sdaOut = Line.released := rfl
@[simp] theorem release_pos : (release s).pos = s.pos := rfl
@[simp] theorem release_trace : (release s).trace = s.trace := rfl
@[simp] theorem release_ret : (release s).ret = s.ret := rfl
@[simp] theorem release_inputs : (release s).inputs = s.inputs := rfl
@[simp] theorem release_acks : (release s).acks = s.acks := rfl
@[simp] theorem release_bytes : (release s).bytes = s.bytes := rfl
@[simp] theorem release_fresh : (release s).fresh = s.fresh := rfl
@[simp] theorem release_reads : (release s).reads = s.reads := rfl

end release

section drive

variable (s : State)

@[simp] theorem drive_cfg : (drive s).cfg = s.cfg := rfl
@[simp] theorem drive_busy : (drive s).busy = s.busy := rfl
@[simp] theorem drive_done : (drive s).done = s.done := rfl
@[simp] theorem drive_mvalid : (drive s).mvalid = s.mvalid := rfl
@[simp] theorem drive_snvalid : (drive s).snvalid = s.snvalid := rfl
@[simp] theorem drive_err : (drive s).err = s.err := rfl
@[simp] theorem drive_mode : (drive s).mode = s.mode := rfl
@[simp] theorem drive_temp : (drive s).temp = s.temp := rfl
@[simp] theorem drive_hum : (drive s).hum = s.hum := rfl
@[simp] theorem drive_rawt : (drive s).rawt = s.rawt := rfl
@[simp] theorem drive_rawh : (drive s).rawh = s.rawh := rfl
@[simp] theorem drive_serial : (drive s).serial = s.serial := rfl
@[simp] theorem drive_phase : (drive s).phase = s.phase := rfl
@[simp] theorem drive_lop : (drive s).lop = s.lop := rfl
@[simp] theorem drive_txbuf : (drive s).txbuf = s.txbuf := rfl
@[simp] theorem drive_rxbuf : (drive s).rxbuf = s.rxbuf := rfl
@[simp] theorem drive_len : (drive s).len = s.len := rfl
@[simp] theorem drive_idx : (drive s).idx = s.idx := rfl
@[simp] theorem drive_dly : (drive s).dly = s.dly := rfl
@[simp] theorem drive_tmo : (drive s).tmo = s.tmo := rfl
@[simp] theorem drive_sclOut : (drive s).sclOut = Config.freeLine s.fresh := rfl
@[simp] theorem drive_sdaOut : (drive s).sdaOut = Config.freeLine (s.fresh + 1) := rfl
@[simp] theorem drive_pos : (drive s).pos = s.pos := rfl
@[simp] theorem drive_trace : (drive s).trace = s.trace := rfl
@[simp] theorem drive_ret : (drive s).ret = s.ret := rfl
@[simp] theorem drive_inputs : (drive s).inputs = s.inputs := rfl
@[simp] theorem drive_acks : (drive s).acks = s.acks := rfl
@[simp] theorem drive_bytes : (drive s).bytes = s.bytes := rfl
@[simp] theorem drive_fresh : (drive s).fresh = s.fresh + 2 := rfl
@[simp] theorem drive_reads : (drive s).reads = s.reads := rfl

end drive

section discardRx

variable (s : State)

@[simp] theorem discardRx_cfg : (discardRx s).cfg = s.cfg := rfl
@[simp] theorem discardRx_busy : (discardRx s).busy = s.busy := rfl
@[simp] theorem discardRx_done : (discardRx s).done = s.done := rfl
@[simp] theorem discardRx_mvalid : (discardRx s).mvalid = s.mvalid := rfl
@[simp] theorem discardRx_snvalid : (discardRx s).snvalid = s.snvalid := rfl
@[simp] theorem discardRx_err : (discardRx s).err = s.err := rfl
@[simp] theorem discardRx_mode : (discardRx s).mode = s.mode := rfl
@[simp] theorem discardRx_temp : (discardRx s).temp = s.temp := rfl
@[simp] theorem discardRx_hum : (discardRx s).hum = s.hum := rfl
@[simp] theorem discardRx_rawt : (discardRx s).rawt = s.rawt := rfl
@[simp] theorem discardRx_rawh : (discardRx s).rawh = s.rawh := rfl
@[simp] theorem discardRx_serial : (discardRx s).serial = s.serial := rfl
@[simp] theorem discardRx_phase : (discardRx s).phase = s.phase := rfl
@[simp] theorem discardRx_lop : (discardRx s).lop = s.lop := rfl
@[simp] theorem discardRx_txbuf : (discardRx s).txbuf = s.txbuf := rfl
@[simp] theorem discardRx_rxbuf : (discardRx s).rxbuf = freeRx s.fresh := rfl
@[simp] theorem discardRx_len : (discardRx s).len = s.len := rfl
@[simp] theorem discardRx_idx : (discardRx s).idx = s.idx := rfl
@[simp] theorem discardRx_dly : (discardRx s).dly = s.dly := rfl
@[simp] theorem discardRx_tmo : (discardRx s).tmo = s.tmo := rfl
@[simp] theorem discardRx_sclOut : (discardRx s).sclOut = s.sclOut := rfl
@[simp] theorem discardRx_sdaOut : (discardRx s).sdaOut = s.sdaOut := rfl
@[simp] theorem discardRx_pos : (discardRx s).pos = s.pos := rfl
@[simp] theorem discardRx_trace : (discardRx s).trace = s.trace := rfl
@[simp] theorem discardRx_ret : (discardRx s).ret = s.ret := rfl
@[simp] theorem discardRx_inputs : (discardRx s).inputs = s.inputs := rfl
@[simp] theorem discardRx_acks : (discardRx s).acks = s.acks := rfl
@[simp] theorem discardRx_bytes : (discardRx s).bytes = s.bytes := rfl
@[simp] theorem discardRx_fresh : (discardRx s).fresh = s.fresh + 6 := rfl
@[simp] theorem discardRx_reads : (discardRx s).reads = s.reads := rfl

end discardRx

section returning

variable (r : SubResult) (s : State)

@[simp] theorem returning_cfg : (returning r s).cfg = s.cfg := rfl
@[simp] theorem returning_busy : (returning r s).busy = s.busy := rfl
@[simp] theorem returning_done : (returning r s).done = s.done := rfl
@[simp] theorem returning_mvalid : (returning r s).mvalid = s.mvalid := rfl
@[simp] theorem returning_snvalid : (returning r s).snvalid = s.snvalid := rfl
@[simp] theorem returning_err : (returning r s).err = s.err := rfl
@[simp] theorem returning_mode : (returning r s).mode = s.mode := rfl
@[simp] theorem returning_temp : (returning r s).temp = s.temp := rfl
@[simp] theorem returning_hum : (returning r s).hum = s.hum := rfl
@[simp] theorem returning_rawt : (returning r s).rawt = s.rawt := rfl
@[simp] theorem returning_rawh : (returning r s).rawh = s.rawh := rfl
@[simp] theorem returning_serial : (returning r s).serial = s.serial := rfl
@[simp] theorem returning_phase : (returning r s).phase = s.phase := rfl
@[simp] theorem returning_lop : (returning r s).lop = s.lop := rfl
@[simp] theorem returning_txbuf : (returning r s).txbuf = s.txbuf := rfl
@[simp] theorem returning_rxbuf : (returning r s).rxbuf = s.rxbuf := rfl
@[simp] theorem returning_len : (returning r s).len = s.len := rfl
@[simp] theorem returning_idx : (returning r s).idx = s.idx := rfl
@[simp] theorem returning_dly : (returning r s).dly = s.dly := rfl
@[simp] theorem returning_tmo : (returning r s).tmo = s.tmo := rfl
@[simp] theorem returning_sclOut : (returning r s).sclOut = s.sclOut := rfl
@[simp] theorem returning_sdaOut : (returning r s).sdaOut = s.sdaOut := rfl
@[simp] theorem returning_pos : (returning r s).pos = s.pos := rfl
@[simp] theorem returning_trace : (returning r s).trace = s.trace := rfl
@[simp] theorem returning_ret : (returning r s).ret = r := rfl
@[simp] theorem returning_inputs : (returning r s).inputs = s.inputs := rfl
@[simp] theorem returning_acks : (returning r s).acks = s.acks := rfl
@[simp] theorem returning_bytes : (returning r s).bytes = s.bytes := rfl
@[simp] theorem returning_fresh : (returning r s).fresh = s.fresh := rfl
@[simp] theorem returning_reads : (returning r s).reads = s.reads := rfl

end returning

section ackTaken

variable (s : State)

@[simp] theorem ackTaken_cfg : (ackTaken s).cfg = s.cfg := rfl
@[simp] theorem ackTaken_busy : (ackTaken s).busy = s.busy := rfl
@[simp] theorem ackTaken_done : (ackTaken s).done = s.done := rfl
@[simp] theorem ackTaken_mvalid : (ackTaken s).mvalid = s.mvalid := rfl
@[simp] theorem ackTaken_snvalid : (ackTaken s).snvalid = s.snvalid := rfl
@[simp] theorem ackTaken_err : (ackTaken s).err = s.err := rfl
@[simp] theorem ackTaken_mode : (ackTaken s).mode = s.mode := rfl
@[simp] theorem ackTaken_temp : (ackTaken s).temp = s.temp := rfl
@[simp] theorem ackTaken_hum : (ackTaken s).hum = s.hum := rfl
@[simp] theorem ackTaken_rawt : (ackTaken s).rawt = s.rawt := rfl
@[simp] theorem ackTaken_rawh : (ackTaken s).rawh = s.rawh := rfl
@[simp] theorem ackTaken_serial : (ackTaken s).serial = s.serial := rfl
@[simp] theorem ackTaken_phase : (ackTaken s).phase = s.phase := rfl
@[simp] theorem ackTaken_lop : (ackTaken s).lop = s.lop := rfl
@[simp] theorem ackTaken_txbuf : (ackTaken s).txbuf = s.txbuf := rfl
@[simp] theorem ackTaken_rxbuf : (ackTaken s).rxbuf = s.rxbuf := rfl
@[simp] theorem ackTaken_len : (ackTaken s).len = s.len := rfl
@[simp] theorem ackTaken_idx : (ackTaken s).idx = s.idx := rfl
@[simp] theorem ackTaken_dly : (ackTaken s).dly = s.dly := rfl
@[simp] theorem ackTaken_tmo : (ackTaken s).tmo = s.tmo := rfl
@[simp] theorem ackTaken_sclOut : (ackTaken s).sclOut = s.sclOut := rfl
@[simp] theorem ackTaken_sdaOut : (ackTaken s).sdaOut = s.sdaOut := rfl
@[simp] theorem ackTaken_pos : (ackTaken s).pos = s.pos := rfl
@[simp] theorem ackTaken_trace : (ackTaken s).trace = s.trace := rfl
@[simp] theorem ackTaken_ret : (ackTaken s).ret = s.ret := rfl
@[simp] theorem ackTaken_inputs : (ackTaken s).inputs = s.inputs := rfl
@[simp] theorem ackTaken_acks : (ackTaken s).acks = (if s.tmo = 0 then s.acks else s.acks.tail) := rfl
@[simp] theorem ackTaken_bytes : (ackTaken s).bytes = s.bytes := rfl
@[simp] theorem ackTaken_fresh : (ackTaken s).fresh = s.fresh + 1 := rfl
@[simp] theorem ackTaken_reads : (ackTaken s).reads = s.reads := rfl

end ackTaken

section byteTaken

variable (s : State)

@[simp] theorem byteTaken_cfg : (byteTaken s).cfg = s.cfg := rfl
@[simp] theorem byteTaken_busy : (byteTaken s).busy = s.busy := rfl
@[simp] theorem byteTaken_done : (byteTaken s).done = s.done := rfl
@[simp] theorem byteTaken_mvalid : (byteTaken s).mvalid = s.mvalid := rfl
@[simp] theorem byteTaken_snvalid : (byteTaken s).snvalid = s.snvalid := rfl
@[simp] theorem byteTaken_err : (byteTaken s).err = s.err := rfl
@[simp] theorem byteTaken_mode : (byteTaken s).mode = s.mode := rfl
@[simp] theorem byteTaken_temp : (byteTaken s).temp = s.temp := rfl
@[simp] theorem byteTaken_hum : (byteTaken s).hum = s.hum := rfl
@[simp] theorem byteTaken_rawt : (byteTaken s).rawt = s.rawt := rfl
@[simp] theorem byteTaken_rawh : (byteTaken s).rawh = s.rawh := rfl
@[simp] theorem byteTaken_serial : (byteTaken s).serial = s.serial := rfl
@[simp] theorem byteTaken_phase : (byteTaken s).phase = s.phase := rfl
@[simp] theorem byteTaken_lop : (byteTaken s).lop = s.lop := rfl
@[simp] theorem byteTaken_txbuf : (byteTaken s).txbuf = s.txbuf := rfl
@[simp] theorem byteTaken_rxbuf : (byteTaken s).rxbuf = s.rxbuf := rfl
@[simp] theorem byteTaken_len : (byteTaken s).len = s.len := rfl
@[simp] theorem byteTaken_idx : (byteTaken s).idx = s.idx := rfl
@[simp] theorem byteTaken_dly : (byteTaken s).dly = s.dly := rfl
@[simp] theorem byteTaken_tmo : (byteTaken s).tmo = s.tmo := rfl
@[simp] theorem byteTaken_sclOut : (byteTaken s).sclOut = s.sclOut := rfl
@[simp] theorem byteTaken_sdaOut : (byteTaken s).sdaOut = s.sdaOut := rfl
@[simp] theorem byteTaken_pos : (byteTaken s).pos = s.pos := rfl
@[simp] theorem byteTaken_trace : (byteTaken s).trace = s.trace := rfl
@[simp] theorem byteTaken_ret : (byteTaken s).ret = s.ret := rfl
@[simp] theorem byteTaken_inputs : (byteTaken s).inputs = s.inputs := rfl
@[simp] theorem byteTaken_acks : (byteTaken s).acks = s.acks := rfl
@[simp] theorem byteTaken_bytes : (byteTaken s).bytes = (if s.tmo = 0 then s.bytes else s.bytes.tail) := rfl
@[simp] theorem byteTaken_fresh : (byteTaken s).fresh = s.fresh + 1 := rfl
@[simp] theorem byteTaken_reads : (byteTaken s).reads = s.reads := rfl

end byteTaken

section busStart

variable (s : State)

@[simp] theorem busStart_cfg : (busStart s).cfg = s.cfg := by simp [busStart]
@[simp] theorem busStart_busy : (busStart s).busy = s.busy := by simp [busStart]
@[simp] theorem busStart_done : (busStart s).done = s.done := by simp [busStart]
@[simp] theorem busStart_mvalid : (busStart s).mvalid = s.mvalid := by simp [busStart]
@[simp] theorem busStart_snvalid : (busStart s).snvalid = s.snvalid := by simp [busStart]
@[simp] theorem busStart_err : (busStart s).err = s.err := by simp [busStart]
@[simp] theorem busStart_mode : (busStart s).mode = s.mode := by simp [busStart]
@[simp] theorem busStart_temp : (busStart s).temp = s.temp := by simp [busStart]
@[simp] theorem busStart_hum : (busStart s).hum = s.hum := by simp [busStart]
@[simp] theorem busStart_rawt : (busStart s).rawt = s.rawt := by simp [busStart]
@[simp] theorem busStart_rawh : (busStart s).rawh = s.rawh := by simp [busStart]
@[simp] theorem busStart_serial : (busStart s).serial = s.serial := by simp [busStart]
@[simp] theorem busStart_phase : (busStart s).phase = s.phase := by simp [busStart]
@[simp] theorem busStart_lop : (busStart s).lop = s.lop := by simp [busStart]
@[simp] theorem busStart_txbuf : (busStart s).txbuf = s.txbuf := by simp [busStart]
@[simp] theorem busStart_rxbuf : (busStart s).rxbuf = s.rxbuf := by simp [busStart]
@[simp] theorem busStart_len : (busStart s).len = s.len := by simp [busStart]
@[simp] theorem busStart_idx : (busStart s).idx = s.idx := by simp [busStart]
@[simp] theorem busStart_dly : (busStart s).dly = s.dly := by simp [busStart]
@[simp] theorem busStart_tmo : (busStart s).tmo = Config.busTimeoutMs := by simp [busStart]
@[simp] theorem busStart_sclOut : (busStart s).sclOut = Config.freeLine s.fresh := by simp [busStart]
@[simp] theorem busStart_sdaOut : (busStart s).sdaOut = Config.freeLine (s.fresh + 1) := by simp [busStart]
@[simp] theorem busStart_pos : (busStart s).pos = BusPos.opened := by simp [busStart]
@[simp] theorem busStart_trace : (busStart s).trace = s.trace ++ [BusSym.start] := by simp [busStart]
@[simp] theorem busStart_ret : (busStart s).ret = s.ret := by simp [busStart]
@[simp] theorem busStart_inputs : (busStart s).inputs = s.inputs := by simp [busStart]
@[simp] theorem busStart_acks : (busStart s).acks = s.acks := by simp [busStart]
@[simp] theorem busStart_bytes : (busStart s).bytes = s.bytes := by simp [busStart]
@[simp] theorem busStart_fresh : (busStart s).fresh = s.fresh + 2 := by simp [busStart]
@[simp] theorem busStart_reads : (busStart s).reads = s.reads := by simp [busStart]

end busStart

section sendByte

variable (b : Byte) (s : State)

@[simp] theorem sendByte_cfg : (sendByte b s).cfg = s.cfg := by simp [sendByte]
@[simp] theorem sendByte_busy : (sendByte b s).busy = s.busy := by simp [sendByte]
@[simp] theorem sendByte_done : (sendByte b s).done = s.done := by simp [sendByte]
@[simp] theorem sendByte_mvalid : (sendByte b s).mvalid = s.mvalid := by simp [sendByte]
@[simp] theorem sendByte_snvalid : (sendByte b s).snvalid = s.snvalid := by simp [sendByte]
@[simp] theorem sendByte_err : (sendByte b s).err = s.err := by simp [sendByte]
@[simp] theorem sendByte_mode : (sendByte b s).mode = s.mode := by simp [sendByte]
@[simp] theorem sendByte_temp : (sendByte b s).temp = s.temp := by simp [sendByte]
@[simp] theorem sendByte_hum : (sendByte b s).hum = s.hum := by simp [sendByte]
@[simp] theorem sendByte_rawt : (sendByte b s).rawt = s.rawt := by simp [sendByte]
@[simp] theorem sendByte_rawh : (sendByte b s).rawh = s.rawh := by simp [sendByte]
@[simp] theorem sendByte_serial : (sendByte b s).serial = s.serial := by simp [sendByte]
@[simp] theorem sendByte_phase : (sendByte b s).phase = s.phase := by simp [sendByte]
@[simp] theorem sendByte_lop : (sendByte b s).lop = s.lop := by simp [sendByte]
@[simp] theorem sendByte_txbuf : (sendByte b s).txbuf = s.txbuf := by simp [sendByte]
@[simp] theorem sendByte_rxbuf : (sendByte b s).rxbuf = s.rxbuf := by simp [sendByte]
@[simp] theorem sendByte_len : (sendByte b s).len = s.len := by simp [sendByte]
@[simp] theorem sendByte_idx : (sendByte b s).idx = s.idx := by simp [sendByte]
@[simp] theorem sendByte_dly : (sendByte b s).dly = s.dly := by simp [sendByte]
@[simp] theorem sendByte_tmo : (sendByte b s).tmo = s.tmo := by simp [sendByte]
@[simp] theorem sendByte_sclOut : (sendByte b s).sclOut = Config.freeLine (s.fresh + 1) := by simp [sendByte]
@[simp] theorem sendByte_sdaOut : (sendByte b s).sdaOut = Config.freeLine (s.fresh + 1 + 1) := by simp [sendByte]
@[simp] theorem sendByte_pos : (sendByte b s).pos = s.pos := by simp [sendByte]
@[simp] theorem sendByte_trace : (sendByte b s).trace = s.trace ++ [BusSym.sent b (ackAnswer s)] := by simp [sendByte]
@[simp] theorem sendByte_ret : (sendByte b s).ret = s.ret := by simp [sendByte]
@[simp] theorem sendByte_inputs : (sendByte b s).inputs = s.inputs := by simp [sendByte]
@[simp] theorem sendByte_acks : (sendByte b s).acks = (if s.tmo = 0 then s.acks else s.acks.tail) := by simp [sendByte]
@[simp] theorem sendByte_bytes : (sendByte b s).bytes = s.bytes := by simp [sendByte]
@[simp] theorem sendByte_fresh : (sendByte b s).fresh = s.fresh + 1 + 2 := by simp [sendByte]
@[simp] theorem sendByte_reads : (sendByte b s).reads = s.reads := by simp [sendByte]

end sendByte

section receiveByte

variable (v : Byte) (s : State)

@[simp] theorem receiveByte_cfg : (receiveByte v s).cfg = s.cfg := by simp [receiveByte]
@[simp] theorem receiveByte_busy : (receiveByte v s).busy = s.busy := by simp [receiveByte]
@[simp] theorem receiveByte_done : (receiveByte v s).done = s.done := by simp [receiveByte]
@[simp] theorem receiveByte_mvalid : (receiveByte v s).mvalid = s.mvalid := by simp [receiveByte]
@[simp] theorem receiveByte_snvalid : (receiveByte v s).snvalid = s.snvalid := by simp [receiveByte]
@[simp] theorem receiveByte_err : (receiveByte v s).err = s.err := by simp [receiveByte]
@[simp] theorem receiveByte_mode : (receiveByte v s).mode = s.mode := by simp [receiveByte]
@[simp] theorem receiveByte_temp : (receiveByte v s).temp = s.temp := by simp [receiveByte]
@[simp] theorem receiveByte_hum : (receiveByte v s).hum = s.hum := by simp [receiveByte]
@[simp] theorem receiveByte_rawt : (receiveByte v s).rawt = s.rawt := by simp [receiveByte]
@[simp] theorem receiveByte_rawh : (receiveByte v s).rawh = s.rawh := by simp [receiveByte]
@[simp] theorem receiveByte_serial : (receiveByte v s).serial = s.serial := by simp [receiveByte]
@[simp] theorem receiveByte_phase : (receiveByte v s).phase = s.phase := by simp [receiveByte]
@[simp] theorem receiveByte_lop : (receiveByte v s).lop = s.lop := by simp [receiveByte]
@[simp] theorem receiveByte_txbuf : (receiveByte v s).txbuf = s.txbuf := by simp [receiveByte]
@[simp] theorem receiveByte_rxbuf : (receiveByte v s).rxbuf = rxSet s.rxbuf s.idx v := by simp [receiveByte]
@[simp] theorem receiveByte_len : (receiveByte v s).len = s.len := by simp [receiveByte]
@[simp] theorem receiveByte_idx : (receiveByte v s).idx = s.idx + 1 := by simp [receiveByte]
@[simp] theorem receiveByte_dly : (receiveByte v s).dly = s.dly := by simp [receiveByte]
@[simp] theorem receiveByte_tmo : (receiveByte v s).tmo = s.tmo := by simp [receiveByte]
@[simp] theorem receiveByte_sclOut : (receiveByte v s).sclOut = Config.freeLine (s.fresh + 1) := by simp [receiveByte]
@[simp] theorem receiveByte_sdaOut : (receiveByte v s).sdaOut = Config.freeLine (s.fresh + 1 + 1) := by simp [receiveByte]
@[simp] theorem receiveByte_pos : (receiveByte v s).pos = s.pos := by simp [receiveByte]
@[simp] theorem receiveByte_trace : (receiveByte v s).trace = s.trace ++ [if s.idx + 1 = s.len then BusSym.receivedNack v else BusSym.receivedAck v] := by simp [receiveByte]
@[simp] theorem receiveByte_ret : (receiveByte v s).ret = s.ret := by simp [receiveByte]
@[simp] theorem receiveByte_inputs : (receiveByte v s).inputs = s.inputs := by simp [receiveByte]
@[simp] theorem receiveByte_acks : (receiveByte v s).acks = s.acks := by simp [receiveByte]
@[simp] theorem receiveByte_bytes : (receiveByte v s).bytes = (if s.tmo = 0 then s.bytes else s.bytes.tail) := by simp [receiveByte]
@[simp] theorem receiveByte_fresh : (receiveByte v s).fresh = s.fresh + 1 + 2 := by simp [receiveByte]
@[simp] theorem receiveByte_reads : (receiveByte v s).reads = s.reads := by simp [receiveByte]

end receiveByte

section receiveTimeout

variable (s : State)

@[simp] theorem receiveTimeout_cfg : (receiveTimeout s).cfg = s.cfg := by simp [receiveTimeout]
@[simp] theorem receiveTimeout_busy : (receiveTimeout s).busy = s.busy := by simp [receiveTimeout]
@[simp] theorem receiveTimeout_done : (receiveTimeout s).done = s.done := by simp [receiveTimeout]
@[simp] theorem receiveTimeout_mvalid : (receiveTimeout s).mvalid = s.mvalid := by simp [receiveTimeout]
@[simp] theorem receiveTimeout_snvalid : (receiveTimeout s).snvalid = s.snvalid := by simp [receiveTimeout]
@[simp] theorem receiveTimeout_err : (receiveTimeout s).err = s.err := by simp [receiveTimeout]
@[simp] theorem receiveTimeout_mode : (receiveTimeout s).mode = s.mode := by simp [receiveTimeout]
@[simp] theorem receiveTimeout_temp : (receiveTimeout s).temp = s.temp := by simp [receiveTimeout]
@[simp] theorem receiveTimeout_hum : (receiveTimeout s).hum = s.hum := by simp [receiveTimeout]
@[simp] theorem receiveTimeout_rawt : (receiveTimeout s).rawt = s.rawt := by simp [receiveTimeout]
@[simp] theorem receiveTimeout_rawh : (receiveTimeout s).rawh = s.rawh := by simp [receiveTimeout]
@[simp] theorem receiveTimeout_serial : (receiveTimeout s).serial = s.serial := by simp [receiveTimeout]
@[simp] theorem receiveTimeout_phase : (receiveTimeout s).phase = s.phase := by simp [receiveTimeout]
@[simp] theorem receiveTimeout_lop : (receiveTimeout s).lop = s.lop := by simp [receiveTimeout]
@[simp] theorem receiveTimeout_txbuf : (receiveTimeout s).txbuf = s.txbuf := by simp [receiveTimeout]
@[simp] theorem receiveTimeout_rxbuf : (receiveTimeout s).rxbuf = s.rxbuf := by simp [receiveTimeout]
@[simp] theorem receiveTimeout_len : (receiveTimeout s).len = s.len := by simp [receiveTimeout]
@[simp] theorem receiveTimeout_idx : (receiveTimeout s).idx = s.idx := by simp [receiveTimeout]
@[simp] theorem receiveTimeout_dly : (receiveTimeout s).dly = s.dly := by simp [receiveTimeout]
@[simp] theorem receiveTimeout_tmo : (receiveTimeout s).tmo = s.tmo := by simp [receiveTimeout]
@[simp] theorem receiveTimeout_sclOut : (receiveTimeout s).sclOut = Config.freeLine (s.fresh + 1) := by simp [receiveTimeout]
@[simp] theorem receiveTimeout_sdaOut : (receiveTimeout s).sdaOut = Config.freeLine (s.fresh + 1 + 1) := by simp [receiveTimeout]
@[simp] theorem receiveTimeout_pos : (receiveTimeout s).pos = s.pos := by simp [receiveTimeout]
@[simp] theorem receiveTimeout_trace : (receiveTimeout s).trace = s.trace ++ [BusSym.receiveTimeout] := by simp [receiveTimeout]
@[simp] theorem receiveTimeout_ret : (receiveTimeout s).ret = s.ret := by simp [receiveTimeout]
@[simp] theorem receiveTimeout_inputs : (receiveTimeout s).inputs = s.inputs := by simp [receiveTimeout]
@[simp] theorem receiveTimeout_acks : (receiveTimeout s).acks = s.acks := by simp [receiveTimeout]
@[simp] theorem receiveTimeout_bytes : (receiveTimeout s).bytes = (if s.tmo = 0 then s.bytes else s.bytes.tail) := by simp [receiveTimeout]
@[simp] theorem receiveTimeout_fresh : (receiveTimeout s).fresh = s.fresh + 1 + 2 := by simp [receiveTimeout]
@[simp] theorem receiveTimeout_reads : (receiveTimeout s).reads = s.reads := by simp [receiveTimeout]

end receiveTimeout

section busStop

variable (s : State)

@[simp] theorem busStop_cfg : (busStop s).cfg = s.cfg := by simp [busStop]
@[simp] theorem busStop_busy : (busStop s).busy = s.busy := by simp [busStop]
@[simp] theorem busStop_done : (busStop s).done = s.done := by simp [busStop]
@[simp] theorem busStop_mvalid : (busStop s).mvalid = s.mvalid := by simp [busStop]
@[simp] theorem busStop_snvalid : (busStop s).snvalid = s.snvalid := by simp [busStop]
@[simp] theorem busStop_err : (busStop s).err = s.err := by simp [busStop]
@[simp] theorem busStop_mode : (busStop s).mode = s.mode := by simp [busStop]
@[simp] theorem busStop_temp : (busStop s).temp = s.temp := by simp [busStop]
@[simp] theorem busStop_hum : (busStop s).hum = s.hum := by simp [busStop]
@[simp] theorem busStop_rawt : (busStop s).rawt = s.rawt := by simp [busStop]
@[simp] theorem busStop_rawh : (busStop s).rawh = s.rawh := by simp [busStop]
@[simp] theorem busStop_serial : (busStop s).serial = s.serial := by simp [busStop]
@[simp] theorem busStop_phase : (busStop s).phase = s.phase := by simp [busStop]
@[simp] theorem busStop_lop : (busStop s).lop = s.lop := by simp [busStop]
@[simp] theorem busStop_txbuf : (busStop s).txbuf = s.txbuf := by simp [busStop]
@[simp] theorem busStop_rxbuf : (busStop s).rxbuf = s.rxbuf := by simp [busStop]
@[simp] theorem busStop_len : (busStop s).len = s.len := by simp [busStop]
@[simp] theorem busStop_idx : (busStop s).idx = s.idx := by simp [busStop]
@[simp] theorem busStop_dly : (busStop s).dly = s.dly := by simp [busStop]
@[simp] theorem busStop_tmo : (busStop s).tmo = s.tmo := by simp [busStop]
@[simp] theorem busStop_sclOut : (busStop s).sclOut = Line.released := by simp [busStop]
@[simp] theorem busStop_sdaOut : (busStop s).sdaOut = Line.released := by simp [busStop]
@[simp] theorem busStop_pos : (busStop s).pos = BusPos.closed := by simp [busStop]
@[simp] theorem busStop_trace : (busStop s).trace = s.trace ++ [BusSym.stop] := by simp [busStop]
@[simp] theorem busStop_ret : (busStop s).ret = s.ret := by simp [busStop]
@[simp] theorem busStop_inputs : (busStop s).inputs = s.inputs := by simp [busStop]
@[simp] theorem busStop_acks : (busStop s).acks = s.acks := by simp [busStop]
@[simp] theorem busStop_bytes : (busStop s).bytes = s.bytes := by simp [busStop]
@[simp] theorem busStop_fresh : (busStop s).fresh = s.fresh := by simp [busStop]
@[simp] theorem busStop_reads : (busStop s).reads = s.reads := by simp [busStop]

end busStop

section busAbort

variable (s : State)

@[simp] theorem busAbort_cfg : (busAbort s).cfg = s.cfg := by simp [busAbort]
@[simp] theorem busAbort_busy : (busAbort s).busy = s.busy := by simp [busAbort]
@[simp] theorem busAbort_done : (busAbort s).done = s.done := by simp [busAbort]
@[simp] theorem busAbort_mvalid : (busAbort s).mvalid = s.mvalid := by simp [busAbort]
@[simp] theorem busAbort_snvalid : (busAbort s).snvalid = s.snvalid := by simp [busAbort]
@[simp] theorem busAbort_err : (busAbort s).err = s.err := by simp [busAbort]
@[simp] theorem busAbort_mode : (busAbort s).mode = s.mode := by simp [busAbort]
@[simp] theorem busAbort_temp : (busAbort s).temp = s.temp := by simp [busAbort]
@[simp] theorem busAbort_hum : (busAbort s).hum = s.hum := by simp [busAbort]
@[simp] theorem busAbort_rawt : (busAbort s).rawt = s.rawt := by simp [busAbort]
@[simp] theorem busAbort_rawh : (busAbort s).rawh = s.rawh := by simp [busAbort]
@[simp] theorem busAbort_serial : (busAbort s).serial = s.serial := by simp [busAbort]
@[simp] theorem busAbort_phase : (busAbort s).phase = s.phase := by simp [busAbort]
@[simp] theorem busAbort_lop : (busAbort s).lop = s.lop := by simp [busAbort]
@[simp] theorem busAbort_txbuf : (busAbort s).txbuf = s.txbuf := by simp [busAbort]
@[simp] theorem busAbort_rxbuf : (busAbort s).rxbuf = s.rxbuf := by simp [busAbort]
@[simp] theorem busAbort_len : (busAbort s).len = s.len := by simp [busAbort]
@[simp] theorem busAbort_idx : (busAbort s).idx = s.idx := by simp [busAbort]
@[simp] theorem busAbort_dly : (busAbort s).dly = s.dly := by simp [busAbort]
@[simp] theorem busAbort_tmo : (busAbort s).tmo = s.tmo := by simp [busAbort]
@[simp] theorem busAbort_sclOut : (busAbort s).sclOut = Line.released := by simp [busAbort]
@[simp] theorem busAbort_sdaOut : (busAbort s).sdaOut = Line.released := by simp [busAbort]
@[simp] theorem busAbort_pos : (busAbort s).pos = BusPos.closed := by simp [busAbort]
@[simp] theorem busAbort_trace : (busAbort s).trace = s.trace ++ [BusSym.abort] := by simp [busAbort]
@[simp] theorem busAbort_ret : (busAbort s).ret = s.ret := by simp [busAbort]
@[simp] theorem busAbort_inputs : (busAbort s).inputs = s.inputs := by simp [busAbort]
@[simp] theorem busAbort_acks : (busAbort s).acks = s.acks := by simp [busAbort]
@[simp] theorem busAbort_bytes : (busAbort s).bytes = s.bytes := by simp [busAbort]
@[simp] theorem busAbort_fresh : (busAbort s).fresh = s.fresh := by simp [busAbort]
@[simp] theorem busAbort_reads : (busAbort s).reads = s.reads := by simp [busAbort]

end busAbort

section complete

variable (code : ErrCode) (s : State)

@[simp] theorem complete_cfg : (complete code s).cfg = s.cfg := rfl
@[simp] theorem complete_busy : (complete code s).busy = false := rfl
@[simp] theorem complete_done : (complete code s).done = true := rfl
@[simp] theorem complete_mvalid : (complete code s).mvalid = s.mvalid := rfl
@[simp] theorem complete_snvalid : (complete code s).snvalid = s.snvalid := rfl
@[simp] theorem complete_err : (complete code s).err = code := rfl
@[simp] theorem complete_mode : (complete code s).mode = s.mode := rfl
@[simp] theorem complete_temp : (complete code s).temp = s.temp := rfl
@[simp] theorem complete_hum : (complete code s).hum = s.hum := rfl
@[simp] theorem complete_rawt : (complete code s).rawt = s.rawt := rfl
@[simp] theorem complete_rawh : (complete code s).rawh = s.rawh := rfl
@[simp] theorem complete_serial : (complete code s).serial = s.serial := rfl
@[simp] theorem complete_phase : (complete code s).phase = Phase.idle := rfl
@[simp] theorem complete_lop : (complete code s).lop = s.lop := rfl
@[simp] theorem complete_txbuf : (complete code s).txbuf = s.txbuf := rfl
@[simp] theorem complete_rxbuf : (complete code s).rxbuf = s.rxbuf := rfl
@[simp] theorem complete_len : (complete code s).len = s.len := rfl
@[simp] theorem complete_idx : (complete code s).idx = s.idx := rfl
@[simp] theorem complete_dly : (complete code s).dly = 0 := rfl
@[simp] theorem complete_tmo : (complete code s).tmo = 0 := rfl
@[simp] theorem complete_sclOut : (complete code s).sclOut = Line.released := rfl
@[simp] theorem complete_sdaOut : (complete code s).sdaOut = Line.released := rfl
@[simp] theorem complete_pos : (complete code s).pos = BusPos.closed := rfl
@[simp] theorem complete_trace : (complete code s).trace = s.trace := rfl
@[simp] theorem complete_ret : (complete code s).ret = SubResult.none := rfl
@[simp] theorem complete_inputs : (complete code s).inputs = s.inputs := rfl
@[simp] theorem complete_acks : (complete code s).acks = s.acks := rfl
@[simp] theorem complete_bytes : (complete code s).bytes = s.bytes := rfl
@[simp] theorem complete_fresh : (complete code s).fresh = s.fresh := rfl
@[simp] theorem complete_reads : (complete code s).reads = s.reads := rfl

end complete

section abort

variable (code : ErrCode) (s : State)

@[simp] theorem abort_cfg : (abort code s).cfg = s.cfg := by simp [abort]
@[simp] theorem abort_busy : (abort code s).busy = false := by simp [abort]
@[simp] theorem abort_done : (abort code s).done = true := by simp [abort]
@[simp] theorem abort_mvalid : (abort code s).mvalid = s.mvalid := by simp [abort]
@[simp] theorem abort_snvalid : (abort code s).snvalid = s.snvalid := by simp [abort]
@[simp] theorem abort_err : (abort code s).err = code := by simp [abort]
@[simp] theorem abort_mode : (abort code s).mode = s.mode := by simp [abort]
@[simp] theorem abort_temp : (abort code s).temp = s.temp := by simp [abort]
@[simp] theorem abort_hum : (abort code s).hum = s.hum := by simp [abort]
@[simp] theorem abort_rawt : (abort code s).rawt = s.rawt := by simp [abort]
@[simp] theorem abort_rawh : (abort code s).rawh = s.rawh := by simp [abort]
@[simp] theorem abort_serial : (abort code s).serial = s.serial := by simp [abort]
@[simp] theorem abort_phase : (abort code s).phase = Phase.idle := by simp [abort]
@[simp] theorem abort_lop : (abort code s).lop = s.lop := by simp [abort]
@[simp] theorem abort_txbuf : (abort code s).txbuf = s.txbuf := by simp [abort]
@[simp] theorem abort_rxbuf : (abort code s).rxbuf = freeRx s.fresh := by simp [abort]
@[simp] theorem abort_len : (abort code s).len = s.len := by simp [abort]
@[simp] theorem abort_idx : (abort code s).idx = s.idx := by simp [abort]
@[simp] theorem abort_dly : (abort code s).dly = 0 := by simp [abort]
@[simp] theorem abort_tmo : (abort code s).tmo = 0 := by simp [abort]
@[simp] theorem abort_sclOut : (abort code s).sclOut = Line.released := by simp [abort]
@[simp] theorem abort_sdaOut : (abort code s).sdaOut = Line.released := by simp [abort]
@[simp] theorem abort_pos : (abort code s).pos = BusPos.closed := by simp [abort]
@[simp] theorem abort_trace : (abort code s).trace = s.trace := by simp [abort]
@[simp] theorem abort_ret : (abort code s).ret = SubResult.none := by simp [abort]
@[simp] theorem abort_inputs : (abort code s).inputs = s.inputs := by simp [abort]
@[simp] theorem abort_acks : (abort code s).acks = s.acks := by simp [abort]
@[simp] theorem abort_bytes : (abort code s).bytes = s.bytes := by simp [abort]
@[simp] theorem abort_fresh : (abort code s).fresh = s.fresh + 6 := by simp [abort]
@[simp] theorem abort_reads : (abort code s).reads = s.reads := by simp [abort]

end abort

section clearEnded

variable (s : State)

@[simp] theorem clearEnded_cfg : (clearEnded s).cfg = s.cfg := rfl
@[simp] theorem clearEnded_busy : (clearEnded s).busy = s.busy := rfl
@[simp] theorem clearEnded_done : (clearEnded s).done = false := rfl
@[simp] theorem clearEnded_mvalid : (clearEnded s).mvalid = s.mvalid := rfl
@[simp] theorem clearEnded_snvalid : (clearEnded s).snvalid = s.snvalid := rfl
@[simp] theorem clearEnded_err : (clearEnded s).err = ErrCode.ok := rfl
@[simp] theorem clearEnded_mode : (clearEnded s).mode = s.mode := rfl
@[simp] theorem clearEnded_temp : (clearEnded s).temp = s.temp := rfl
@[simp] theorem clearEnded_hum : (clearEnded s).hum = s.hum := rfl
@[simp] theorem clearEnded_rawt : (clearEnded s).rawt = s.rawt := rfl
@[simp] theorem clearEnded_rawh : (clearEnded s).rawh = s.rawh := rfl
@[simp] theorem clearEnded_serial : (clearEnded s).serial = s.serial := rfl
@[simp] theorem clearEnded_phase : (clearEnded s).phase = s.phase := rfl
@[simp] theorem clearEnded_lop : (clearEnded s).lop = s.lop := rfl
@[simp] theorem clearEnded_txbuf : (clearEnded s).txbuf = s.txbuf := rfl
@[simp] theorem clearEnded_rxbuf : (clearEnded s).rxbuf = s.rxbuf := rfl
@[simp] theorem clearEnded_len : (clearEnded s).len = s.len := rfl
@[simp] theorem clearEnded_idx : (clearEnded s).idx = s.idx := rfl
@[simp] theorem clearEnded_dly : (clearEnded s).dly = s.dly := rfl
@[simp] theorem clearEnded_tmo : (clearEnded s).tmo = s.tmo := rfl
@[simp] theorem clearEnded_sclOut : (clearEnded s).sclOut = s.sclOut := rfl
@[simp] theorem clearEnded_sdaOut : (clearEnded s).sdaOut = s.sdaOut := rfl
@[simp] theorem clearEnded_pos : (clearEnded s).pos = s.pos := rfl
@[simp] theorem clearEnded_trace : (clearEnded s).trace = s.trace := rfl
@[simp] theorem clearEnded_ret : (clearEnded s).ret = s.ret := rfl
@[simp] theorem clearEnded_inputs : (clearEnded s).inputs = s.inputs := rfl
@[simp] theorem clearEnded_acks : (clearEnded s).acks = s.acks := rfl
@[simp] theorem clearEnded_bytes : (clearEnded s).bytes = s.bytes := rfl
@[simp] theorem clearEnded_fresh : (clearEnded s).fresh = s.fresh := rfl
@[simp] theorem clearEnded_reads : (clearEnded s).reads = s.reads := rfl

end clearEnded

section observe

variable (n : Nat) (v : HostVal) (s : State)

@[simp] theorem observe_cfg : (observe n v s).cfg = s.cfg := rfl
@[simp] theorem observe_busy : (observe n v s).busy = s.busy := rfl
@[simp] theorem observe_done : (observe n v s).done = s.done := rfl
@[simp] theorem observe_mvalid : (observe n v s).mvalid = s.mvalid := rfl
@[simp] theorem observe_snvalid : (observe n v s).snvalid = s.snvalid := rfl
@[simp] theorem observe_err : (observe n v s).err = s.err := rfl
@[simp] theorem observe_mode : (observe n v s).mode = s.mode := rfl
@[simp] theorem observe_temp : (observe n v s).temp = s.temp := rfl
@[simp] theorem observe_hum : (observe n v s).hum = s.hum := rfl
@[simp] theorem observe_rawt : (observe n v s).rawt = s.rawt := rfl
@[simp] theorem observe_rawh : (observe n v s).rawh = s.rawh := rfl
@[simp] theorem observe_serial : (observe n v s).serial = s.serial := rfl
@[simp] theorem observe_phase : (observe n v s).phase = s.phase := rfl
@[simp] theorem observe_lop : (observe n v s).lop = s.lop := rfl
@[simp] theorem observe_txbuf : (observe n v s).txbuf = s.txbuf := rfl
@[simp] theorem observe_rxbuf : (observe n v s).rxbuf = s.rxbuf := rfl
@[simp] theorem observe_len : (observe n v s).len = s.len := rfl
@[simp] theorem observe_idx : (observe n v s).idx = s.idx := rfl
@[simp] theorem observe_dly : (observe n v s).dly = s.dly := rfl
@[simp] theorem observe_tmo : (observe n v s).tmo = s.tmo := rfl
@[simp] theorem observe_sclOut : (observe n v s).sclOut = s.sclOut := rfl
@[simp] theorem observe_sdaOut : (observe n v s).sdaOut = s.sdaOut := rfl
@[simp] theorem observe_pos : (observe n v s).pos = s.pos := rfl
@[simp] theorem observe_trace : (observe n v s).trace = s.trace := rfl
@[simp] theorem observe_ret : (observe n v s).ret = s.ret := rfl
@[simp] theorem observe_inputs : (observe n v s).inputs = s.inputs := rfl
@[simp] theorem observe_acks : (observe n v s).acks = s.acks := rfl
@[simp] theorem observe_bytes : (observe n v s).bytes = s.bytes := rfl
@[simp] theorem observe_fresh : (observe n v s).fresh = s.fresh := rfl
@[simp] theorem observe_reads : (observe n v s).reads = s.reads ++ [(n, v)] := rfl

end observe

section enterSettle

variable (ms : Nat) (s : State)

@[simp] theorem enterSettle_cfg : (enterSettle ms s).cfg = s.cfg := rfl
@[simp] theorem enterSettle_busy : (enterSettle ms s).busy = s.busy := rfl
@[simp] theorem enterSettle_done : (enterSettle ms s).done = s.done := rfl
@[simp] theorem enterSettle_mvalid : (enterSettle ms s).mvalid = s.mvalid := rfl
@[simp] theorem enterSettle_snvalid : (enterSettle ms s).snvalid = s.snvalid := rfl
@[simp] theorem enterSettle_err : (enterSettle ms s).err = s.err := rfl
@[simp] theorem enterSettle_mode : (enterSettle ms s).mode = s.mode := rfl
@[simp] theorem enterSettle_temp : (enterSettle ms s).temp = s.temp := rfl
@[simp] theorem enterSettle_hum : (enterSettle ms s).hum = s.hum := rfl
@[simp] theorem enterSettle_rawt : (enterSettle ms s).rawt = s.rawt := rfl
@[simp] theorem enterSettle_rawh : (enterSettle ms s).rawh = s.rawh := rfl
@[simp] theorem enterSettle_serial : (enterSettle ms s).serial = s.serial := rfl
@[simp] theorem enterSettle_phase : (enterSettle ms s).phase = Phase.settle := rfl
@[simp] theorem enterSettle_lop : (enterSettle ms s).lop = s.lop := rfl
@[simp] theorem enterSettle_txbuf : (enterSettle ms s).txbuf = s.txbuf := rfl
@[simp] theorem enterSettle_rxbuf : (enterSettle ms s).rxbuf = s.rxbuf := rfl
@[simp] theorem enterSettle_len : (enterSettle ms s).len = s.len := rfl
@[simp] theorem enterSettle_idx : (enterSettle ms s).idx = s.idx := rfl
@[simp] theorem enterSettle_dly : (enterSettle ms s).dly = ms := rfl
@[simp] theorem enterSettle_tmo : (enterSettle ms s).tmo = s.tmo := rfl
@[simp] theorem enterSettle_sclOut : (enterSettle ms s).sclOut = s.sclOut := rfl
@[simp] theorem enterSettle_sdaOut : (enterSettle ms s).sdaOut = s.sdaOut := rfl
@[simp] theorem enterSettle_pos : (enterSettle ms s).pos = s.pos := rfl
@[simp] theorem enterSettle_trace : (enterSettle ms s).trace = s.trace := rfl
@[simp] theorem enterSettle_ret : (enterSettle ms s).ret = SubResult.none := rfl
@[simp] theorem enterSettle_inputs : (enterSettle ms s).inputs = s.inputs := rfl
@[simp] theorem enterSettle_acks : (enterSettle ms s).acks = s.acks := rfl
@[simp] theorem enterSettle_bytes : (enterSettle ms s).bytes = s.bytes := rfl
@[simp] theorem enterSettle_fresh : (enterSettle ms s).fresh = s.fresh := rfl
@[simp] theorem enterSettle_reads : (enterSettle ms s).reads = s.reads := rfl

end enterSettle

section loadCommand

variable (cmd : Command) (s : State)

@[simp] theorem loadCommand_cfg : (loadCommand cmd s).cfg = s.cfg := rfl
@[simp] theorem loadCommand_busy : (loadCommand cmd s).busy = s.busy := rfl
@[simp] theorem loadCommand_done : (loadCommand cmd s).done = s.done := rfl
@[simp] theorem loadCommand_mvalid : (loadCommand cmd s).mvalid = s.mvalid := rfl
@[simp] theorem loadCommand_snvalid : (loadCommand cmd s).snvalid = s.snvalid := rfl
@[simp] theorem loadCommand_err : (loadCommand cmd s).err = s.err := rfl
@[simp] theorem loadCommand_mode : (loadCommand cmd s).mode = s.mode := rfl
@[simp] theorem loadCommand_temp : (loadCommand cmd s).temp = s.temp := rfl
@[simp] theorem loadCommand_hum : (loadCommand cmd s).hum = s.hum := rfl
@[simp] theorem loadCommand_rawt : (loadCommand cmd s).rawt = s.rawt := rfl
@[simp] theorem loadCommand_rawh : (loadCommand cmd s).rawh = s.rawh := rfl
@[simp] theorem loadCommand_serial : (loadCommand cmd s).serial = s.serial := rfl
@[simp] theorem loadCommand_phase : (loadCommand cmd s).phase = Phase.write := rfl
@[simp] theorem loadCommand_lop : (loadCommand cmd s).lop = s.lop := rfl
@[simp] theorem loadCommand_txbuf : (loadCommand cmd s).txbuf = txOf (commandWord s.cfg cmd) := rfl
@[simp] theorem loadCommand_rxbuf : (loadCommand cmd s).rxbuf = s.rxbuf := rfl
@[simp] theorem loadCommand_len : (loadCommand cmd s).len = s.len := rfl
@[simp] theorem loadCommand_idx : (loadCommand cmd s).idx = s.idx := rfl
@[simp] theorem loadCommand_dly : (loadCommand cmd s).dly = s.dly := rfl
@[simp] theorem loadCommand_tmo : (loadCommand cmd s).tmo = s.tmo := rfl
@[simp] theorem loadCommand_sclOut : (loadCommand cmd s).sclOut = s.sclOut := rfl
@[simp] theorem loadCommand_sdaOut : (loadCommand cmd s).sdaOut = s.sdaOut := rfl
@[simp] theorem loadCommand_pos : (loadCommand cmd s).pos = s.pos := rfl
@[simp] theorem loadCommand_trace : (loadCommand cmd s).trace = s.trace := rfl
@[simp] theorem loadCommand_ret : (loadCommand cmd s).ret = s.ret := rfl
@[simp] theorem loadCommand_inputs : (loadCommand cmd s).inputs = s.inputs := rfl
@[simp] theorem loadCommand_acks : (loadCommand cmd s).acks = s.acks := rfl
@[simp] theorem loadCommand_bytes : (loadCommand cmd s).bytes = s.bytes := rfl
@[simp] theorem loadCommand_fresh : (loadCommand cmd s).fresh = s.fresh := rfl
@[simp] theorem loadCommand_reads : (loadCommand cmd s).reads = s.reads := rfl

end loadCommand

section readStart

variable (n : Nat) (s : State)

@[simp] theorem readStart_cfg : (readStart n s).cfg = s.cfg := by simp [readStart]
@[simp] theorem readStart_busy : (readStart n s).busy = s.busy := by simp [readStart]
@[simp] theorem readStart_done : (readStart n s).done = s.done := by simp [readStart]
@[simp] theorem readStart_mvalid : (readStart n s).mvalid = s.mvalid := by simp [readStart]
@[simp] theorem readStart_snvalid : (readStart n s).snvalid = s.snvalid := by simp [readStart]
@[simp] theorem readStart_err : (readStart n s).err = s.err := by simp [readStart]
@[simp] theorem readStart_mode : (readStart n s).mode = s.mode := by simp [readStart]
@[simp] theorem readStart_temp : (readStart n s).temp = s.temp := by simp [readStart]
@[simp] theorem readStart_hum : (readStart n s).hum = s.hum := by simp [readStart]
@[simp] theorem readStart_rawt : (readStart n s).rawt = s.rawt := by simp [readStart]
@[simp] theorem readStart_rawh : (readStart n s).rawh = s.rawh := by simp [readStart]
@[simp] theorem readStart_serial : (readStart n s).serial = s.serial := by simp [readStart]
@[simp] theorem readStart_phase : (readStart n s).phase = s.phase := by simp [readStart]
@[simp] theorem readStart_lop : (readStart n s).lop = s.lop := by simp [readStart]
@[simp] theorem readStart_txbuf : (readStart n s).txbuf = s.txbuf := by simp [readStart]
@[simp] theorem readStart_rxbuf : (readStart n s).rxbuf = s.rxbuf := by simp [readStart]
@[simp] theorem readStart_len : (readStart n s).len = n := by simp [readStart]
@[simp] theorem readStart_idx : (readStart n s).idx = 0 := by simp [readStart]
@[simp] theorem readStart_dly : (readStart n s).dly = s.dly := by simp [readStart]
@[simp] theorem readStart_tmo : (readStart n s).tmo = Config.busTimeoutMs := by simp [readStart]
@[simp] theorem readStart_sclOut : (readStart n s).sclOut = Config.freeLine s.fresh := by simp [readStart]
@[simp] theorem readStart_sdaOut : (readStart n s).sdaOut = Config.freeLine (s.fresh + 1) := by simp [readStart]
@[simp] theorem readStart_pos : (readStart n s).pos = BusPos.opened := by simp [readStart]
@[simp] theorem readStart_trace : (readStart n s).trace = s.trace ++ [BusSym.start] := by simp [readStart]
@[simp] theorem readStart_ret : (readStart n s).ret = s.ret := by simp [readStart]
@[simp] theorem readStart_inputs : (readStart n s).inputs = s.inputs := by simp [readStart]
@[simp] theorem readStart_acks : (readStart n s).acks = s.acks := by simp [readStart]
@[simp] theorem readStart_bytes : (readStart n s).bytes = s.bytes := by simp [readStart]
@[simp] theorem readStart_fresh : (readStart n s).fresh = s.fresh + 2 := by simp [readStart]
@[simp] theorem readStart_reads : (readStart n s).reads = s.reads := by simp [readStart]

end readStart

section tick

variable (s : State)

@[simp] theorem tick_cfg : (tick s).cfg = s.cfg := rfl
@[simp] theorem tick_busy : (tick s).busy = s.busy := rfl
@[simp] theorem tick_done : (tick s).done = s.done := rfl
@[simp] theorem tick_mvalid : (tick s).mvalid = s.mvalid := rfl
@[simp] theorem tick_snvalid : (tick s).snvalid = s.snvalid := rfl
@[simp] theorem tick_err : (tick s).err = s.err := rfl
@[simp] theorem tick_mode : (tick s).mode = s.mode := rfl
@[simp] theorem tick_temp : (tick s).temp = s.temp := rfl
@[simp] theorem tick_hum : (tick s).hum = s.hum := rfl
@[simp] theorem tick_rawt : (tick s).rawt = s.rawt := rfl
@[simp] theorem tick_rawh : (tick s).rawh = s.rawh := rfl
@[simp] theorem tick_serial : (tick s).serial = s.serial := rfl
@[simp] theorem tick_phase : (tick s).phase = s.phase := rfl
@[simp] theorem tick_lop : (tick s).lop = s.lop := rfl
@[simp] theorem tick_txbuf : (tick s).txbuf = s.txbuf := rfl
@[simp] theorem tick_rxbuf : (tick s).rxbuf = s.rxbuf := rfl
@[simp] theorem tick_len : (tick s).len = s.len := rfl
@[simp] theorem tick_idx : (tick s).idx = s.idx := rfl
@[simp] theorem tick_dly : (tick s).dly = (if s.phase = .settle then s.dly - 1 else s.dly) := rfl
@[simp] theorem tick_tmo : (tick s).tmo = (if isOpen s.pos then s.tmo - 1 else s.tmo) := rfl
@[simp] theorem tick_sclOut : (tick s).sclOut = s.sclOut := rfl
@[simp] theorem tick_sdaOut : (tick s).sdaOut = s.sdaOut := rfl
@[simp] theorem tick_pos : (tick s).pos = s.pos := rfl
@[simp] theorem tick_trace : (tick s).trace = s.trace := rfl
@[simp] theorem tick_ret : (tick s).ret = s.ret := rfl
@[simp] theorem tick_inputs : (tick s).inputs = s.inputs := rfl
@[simp] theorem tick_acks : (tick s).acks = s.acks := rfl
@[simp] theorem tick_bytes : (tick s).bytes = s.bytes := rfl
@[simp] theorem tick_fresh : (tick s).fresh = s.fresh := rfl
@[simp] theorem tick_reads : (tick s).reads = s.reads := rfl

end tick

end Sys2Proof.Machine
end

