-- ==== Sys2Proof/Laws/Decoder.lean ====
section
/-! SUPPORT. Which test fails first, said once: what each check of `P_DECODE` raises and when it raises nothing (60_exceptions.md R265). -/

namespace Sys2Proof.Machine

/-- The humidity test can never fail (43_decoder.md R209). -/
@[simp] theorem hOk_true (r : W16) : hOk r = true := by simp [hOk]; omega

theorem tOk_iff (r : W16) : tOk r = true ↔ 9363 ≤ r.toNat ∧ r.toNat ≤ 63662 := by simp [tOk]; omega

@[simp] theorem unlessError_none (goOn : State → State) (s : State) : unlessError none goOn s = goOn s := rfl
@[simp] theorem unlessError_some (c : ErrCode) (goOn : State → State) (s : State) : unlessError (some c) goOn s = abort c s := rfl

theorem frameError_none {r : RxBuf} : frameError r = none ↔ frameOk r = true := by
  unfold frameError; split <;> simp [*]

theorem measError_none {r : RxBuf} : measError r = none ↔ tOk (rawTOf r) = true := by
  unfold measError; split <;> simp_all

theorem serialError_none {sn : W32} : serialError sn = none ↔ sn ≠ 0xFFFFFFFF#32 := by
  unfold serialError; split <;> simp [*]

theorem frameError_some {r : RxBuf} {c : ErrCode} (h : frameError r = some c) : c = .checksumMismatch := by
  unfold frameError at h; split at h <;> simp_all

theorem measError_some {r : RxBuf} {c : ErrCode} (h : measError r = some c) : c = .implausibleReading := by
  unfold measError at h; split at h <;> simp_all

theorem serialError_some {sn : W32} {c : ErrCode} (h : serialError sn = some c) : c = .invalidResponse := by
  unfold serialError at h; split at h <;> simp_all

theorem frameOrMeas_none {r : RxBuf} (h : (frameError r).or (measError r) = none) : frameOk r = true ∧ tOk (rawTOf r) = true := by
  rw [Option.or_eq_none_iff, frameError_none, measError_none] at h; exact h

theorem frameOrMeas_some {r : RxBuf} {c : ErrCode} (h : (frameError r).or (measError r) = some c) :
    c = .checksumMismatch ∨ c = .implausibleReading := by
  cases e : frameError r with
  | none => rw [e] at h; exact .inr (measError_some h)
  | some d => rw [e] at h; cases h; exact .inl (frameError_some e)

theorem checkedSerialError_none {r : RxBuf} :
    checkedSerialError r = none ↔ frameOk r = true ∧ serialChecked6Of r ≠ 0xFFFFFFFF#32 := by
  rw [checkedSerialError, Option.or_eq_none_iff, frameError_none, serialError_none]

theorem checkedSerialError_some {r : RxBuf} {c : ErrCode} (h : checkedSerialError r = some c) :
    c = .checksumMismatch ∨ c = .invalidResponse := by
  unfold checkedSerialError at h
  cases e : frameError r with
  | none => rw [e] at h; exact .inr (serialError_some h)
  | some d => rw [e] at h; cases h; exact .inl (frameError_some e)

end Sys2Proof.Machine
end

