-- ==== Sys2Proof/Laws/Operands.lean ====
section
/-! SUPPORT. Facts about operand forms and encodings: the latch, the command words, the assembly of words from bytes. -/

namespace Sys2Proof.Machine

@[simp] theorem repOfCode_repCode (rep : Rep) : repOfCode (repCode rep) = some rep := by
  cases rep <;> rfl

/-- The latch of an operation holds that operation. -/
@[simp] theorem latched_latchOf (op : HostOp) : latched (latchOf op) = some op := by
  cases op <;> simp [latched, latchOf]

/-- Appending a byte below. -/
theorem append_byte_toNat {n : Nat} (x : BitVec n) (b : Byte) : (x ++ b).toNat = 256 * x.toNat + b.toNat := by
  rw [BitVec.toNat_append, ← Nat.shiftLeft_add_eq_or_of_lt b.isLt, Nat.shiftLeft_eq]; omega

@[simp] theorem high_of_append (hi lo : Byte) : wordHigh (hi ++ lo) = hi := by
  apply BitVec.eq_of_toNat_eq
  simp only [wordHigh, BitVec.extractLsb'_toNat, append_byte_toNat, Nat.shiftRight_eq_div_pow]
  omega

@[simp] theorem low_of_append (hi lo : Byte) : wordLow (hi ++ lo) = lo := by
  apply BitVec.eq_of_toNat_eq
  simp only [wordLow, BitVec.extractLsb'_toNat, append_byte_toNat, Nat.shiftRight_eq_div_pow]
  omega

/-- A word is its two bytes, the high one first. -/
@[simp] theorem high_append_low (w : W16) : wordHigh w ++ wordLow w = w := by
  apply BitVec.eq_of_toNat_eq
  simp only [wordHigh, wordLow, BitVec.extractLsb'_toNat, append_byte_toNat, Nat.shiftRight_eq_div_pow]
  omega

@[simp] theorem txWord_txOf (w : W16) : txWord (txOf w) = w := by simp [txWord, txOf]

/-- The row that stands for a command runs SEND_CMD of it. -/
@[simp] theorem exec_toInstr (cmd : Command) (s : State) : exec cmd.toInstr s = .next (sendCommand cmd s) := by
  cases cmd with
  | softReset | readSerial | fetch => rfl
  | ssStretch rep | ssNostretch rep => cases rep <;> rfl
  | periodic rep rate =>
    have h : rate = 0#3 ∨ rate = 1#3 ∨ rate = 2#3 ∨ rate = 3#3 ∨ rate = 4#3 ∨ rate = 5#3 ∨ rate = 6#3 ∨ rate = 7#3 := by
      revert rate; decide
    rcases h with rfl | rfl | rfl | rfl | rfl | rfl | rfl | rfl <;> cases rep <;> rfl

theorem rawWord_toNat (d0 d1 : Byte) : (rawWord d0 d1).toNat = 256 * d0.toNat + d1.toNat := append_byte_toNat d0 d1

theorem serialRaw4Of_toNat (r : RxBuf) :
    (serialRaw4Of r).toNat = 16777216 * r.b0.toNat + 65536 * r.b1.toNat + 256 * r.b2.toNat + r.b3.toNat := by
  simp only [serialRaw4Of, append_byte_toNat]
  omega

theorem serialChecked6Of_toNat (r : RxBuf) :
    (serialChecked6Of r).toNat = 16777216 * r.b0.toNat + 65536 * r.b1.toNat + 256 * r.b3.toNat + r.b4.toNat := by
  simp only [serialChecked6Of, append_byte_toNat]
  omega

/-- `RXBUF[i] <- v` writes byte `i` and no other (10_state.md R33). -/
theorem rxGet_rxSet (r : RxBuf) (i j : Nat) (v : Byte) (h : i < 6) :
    rxGet (rxSet r i v) j = if j = i then some v else rxGet r j := by
  have hi : i = 0 ∨ i = 1 ∨ i = 2 ∨ i = 3 ∨ i = 4 ∨ i = 5 := by omega
  by_cases hj : j < 6
  · have hj : j = 0 ∨ j = 1 ∨ j = 2 ∨ j = 3 ∨ j = 4 ∨ j = 5 := by omega
    rcases hi with rfl | rfl | rfl | rfl | rfl | rfl <;> rcases hj with rfl | rfl | rfl | rfl | rfl | rfl <;> rfl
  · have : rxGet r j = none ∧ rxGet (rxSet r i v) j = none := by
      constructor <;> (unfold rxGet; split <;> first | omega | rfl)
    simp [this, show j ≠ i by omega]

end Sys2Proof.Machine
end

