-- ==== Sys2Proof/Laws/Transport.lean ====
section
/-! SUPPORT. What a transaction does, said once: WRITE and READ on a given peer script, and on any (40_bus_transport.md R133, R134, R141). -/

namespace Sys2Proof.Machine

theorem ackAnswer_of_script {s : State} {a : Ack} {rest : List Ack} (ht : s.tmo ≠ 0) (h : s.acks = a :: rest) : ackAnswer s = a := by
  simp [ackAnswer, ht, h]

theorem byteAnswer_of_script {s : State} {b : PeerByte} {rest : List PeerByte} (ht : s.tmo ≠ 0) (h : s.bytes = b :: rest) : byteAnswer s = b := by
  simp [byteAnswer, ht, h]

/-- Every byte acknowledged: the bytes go out in order, then `P`, and `OK` is returned. -/
theorem sendAll_acked (bytes : List Byte) : ∀ (s : State) (rest : List Ack), s.tmo ≠ 0 → s.acks = List.replicate bytes.length .ack ++ rest →
    sendAll bytes s = { s with
      acks := rest, fresh := s.fresh + 3 * bytes.length, trace := s.trace ++ bytes.map (.sent · .ack) ++ [.stop], sclOut := .released,
      sdaOut := .released, pos := .closed, ret := .ok } := by
  induction bytes with
  | nil => intro s rest _ h; simp at h; simp [sendAll, returning, busStop, release, emit, ← h]
  | cons b bs ih =>
    intro s rest ht h
    simp only [List.length_cons, List.replicate_succ, List.cons_append] at h
    rw [sendAll, ackAnswer_of_script ht h]
    simp only
    rw [ih (sendByte b s) rest (by simpa using ht) (by simp [ht, h])]
    simp [sendByte, drive, emit, ackTaken, ackAnswer_of_script ht h]
    omega

/-- The first answer other than `ACK` ends the transaction; no later byte goes out. -/
theorem sendAll_failed (before : List Byte) : ∀ (s : State) (b : Byte) (after : List Byte) (a : Ack) (rest : List Ack), a ≠ .ack →
    s.tmo ≠ 0 → s.acks = List.replicate before.length .ack ++ a :: rest →
    sendAll (before ++ b :: after) s = { s with
      acks := rest, fresh := s.fresh + 3 * (before.length + 1), trace := s.trace ++ before.map (.sent · .ack) ++ .sent b a :: endSymbol a,
      sclOut := .released, sdaOut := .released, pos := .closed, ret := .busError } := by
  induction before with
  | nil =>
    intro s b after a rest ha ht h
    simp only [List.length_nil, List.replicate_zero, List.nil_append] at h
    rw [List.nil_append, sendAll, ackAnswer_of_script ht h]
    cases a <;> simp_all [returning, endFailed, busStop, busAbort, release, emit, sendByte, drive, ackTaken, endSymbol, ackAnswer]
  | cons c bs ih =>
    intro s b after a rest ha ht h
    simp only [List.length_cons, List.replicate_succ, List.cons_append] at h
    rw [List.cons_append, sendAll, ackAnswer_of_script ht h]
    simp only
    rw [ih (sendByte c s) b after a rest ha (by simpa using ht) (by simp [ht, h])]
    simp [sendByte, drive, emit, ackTaken, ackAnswer_of_script ht h]
    omega

/-- Bytes stored from index `i` on. -/
def storeAll : List Byte → Nat → RxBuf → RxBuf
  | [], _, r => r
  | v :: vs, i, r => storeAll vs (i + 1) (rxSet r i v)

/-- `storeAll` puts the bytes where they belong and touches no other. -/
theorem rxGet_storeAll (vs : List Byte) : ∀ (i : Nat) (r : RxBuf), i + vs.length ≤ 6 → ∀ j,
    rxGet (storeAll vs i r) j = if i ≤ j ∧ j < i + vs.length then vs[j - i]? else rxGet r j := by
  induction vs with
  | nil => intro i r _ j; rw [if_neg (by rw [List.length_nil]; omega)]; rfl
  | cons v vs ih =>
    intro i r h j
    simp only [List.length_cons] at h
    rw [storeAll, ih (i + 1) _ (by omega) j, rxGet_rxSet _ _ _ _ (by omega)]
    by_cases h1 : j = i
    · subst h1
      rw [if_neg (by omega), if_pos (by omega)]
      simp
    · by_cases h2 : i + 1 ≤ j ∧ j < i + 1 + vs.length
      · have : j - i = (j - (i + 1)) + 1 := by omega
        simp [h2, show i ≤ j ∧ j < i + (vs.length + 1) by omega, this]
      · rw [if_neg h2, if_neg (show ¬ (i ≤ j ∧ j < i + (v :: vs).length) by rw [List.length_cons]; omega), if_neg h1]

/-- Every byte supplied: the bytes go into `RXBUF` in order, all acknowledged but the last, then `P`, and `OK` is returned. -/
theorem receiveAll_bytes (vs : List Byte) : ∀ (s : State) (rest : List PeerByte), s.tmo ≠ 0 → s.idx + vs.length = s.len →
    s.bytes = vs.map .byte ++ rest →
    receiveAll vs.length s = { s with
      bytes := rest, fresh := s.fresh + 3 * vs.length, rxbuf := storeAll vs s.idx s.rxbuf, idx := s.len,
      trace := s.trace ++ receivedSymbols vs ++ [.stop], sclOut := .released, sdaOut := .released, pos := .closed, ret := .ok } := by
  induction vs with
  | nil =>
    intro s rest _ hi h
    simp at h hi
    simp [receiveAll, returning, busStop, release, emit, storeAll, receivedSymbols, ← h, ← hi]
  | cons v vs ih =>
    intro s rest ht hi h
    simp only [List.map_cons, List.cons_append] at h
    simp only [List.length_cons] at hi
    rw [List.length_cons, receiveAll, byteAnswer_of_script ht h]
    simp only
    rw [ih (receiveByte v s) rest (by simpa using ht) (by simp; omega) (by simp [ht, h])]
    cases vs with
    | nil => simp_all [receiveByte, drive, emit, byteTaken, storeAll, receivedSymbols]
    | cons w ws =>
      simp only [List.length_cons] at hi
      simp [receiveByte, drive, emit, byteTaken, storeAll, receivedSymbols, show ¬ s.idx + 1 = s.len by omega]
      omega

/-- A byte that times out ends the READ: `R/TIMEOUT X`, `BusError`, and the bytes received are discarded. -/
theorem receiveAll_timeout (vs : List Byte) : ∀ (s : State) (n : Nat) (rest : List PeerByte), s.tmo ≠ 0 → vs.length < n → s.idx + n = s.len →
    s.bytes = vs.map .byte ++ .timeout :: rest →
    receiveAll n s = { s with
      bytes := rest, fresh := s.fresh + 3 * (vs.length + 1) + 6, rxbuf := freeRx (s.fresh + 3 * (vs.length + 1)), idx := s.idx + vs.length,
      trace := s.trace ++ vs.map .receivedAck ++ [.receiveTimeout, .abort], sclOut := .released, sdaOut := .released, pos := .closed,
      ret := .busError } := by
  induction vs with
  | nil =>
    intro s n rest ht hn hi h
    obtain ⟨n, rfl⟩ : ∃ m, n = m + 1 := ⟨n - 1, by simp at hn; omega⟩
    simp only [List.map_nil, List.nil_append] at h
    rw [receiveAll, byteAnswer_of_script ht h]
    simp [readFailed, returning, discardRx, busAbort, release, receiveTimeout, drive, emit, byteTaken, ht, h]
  | cons v vs ih =>
    intro s n rest ht hn hi h
    obtain ⟨n, rfl⟩ : ∃ m, n = m + 1 := ⟨n - 1, by simp at hn; omega⟩
    simp only [List.map_cons, List.cons_append] at h
    simp only [List.length_cons] at hn
    rw [receiveAll, byteAnswer_of_script ht h]
    simp only
    rw [ih (receiveByte v s) n rest (by simpa using ht) (by omega) (by simp; omega) (by simp [ht, h])]
    have e : s.fresh + 1 + 2 + 3 * (vs.length + 1) = s.fresh + 3 * (vs.length + 1 + 1) := by omega
    simp [receiveByte, drive, emit, byteTaken, show ¬ s.idx + 1 = s.len by omega, e]
    omega

/-- The fields a transaction writes; every other field is unchanged. -/
def sameButBus (s t : State) : Prop :=
  t = { s with
    rxbuf := t.rxbuf, len := t.len, idx := t.idx, tmo := t.tmo, sclOut := t.sclOut, sdaOut := t.sdaOut, pos := t.pos, trace := t.trace,
    ret := t.ret, acks := t.acks, bytes := t.bytes, fresh := t.fresh }

end Sys2Proof.Machine
end

