-- ==== Sys2Proof/Laws/Invariant.lean ====
section
/-! SUPPORT. How the invariant of the block is kept: by what it does not read, by an operation's start, by its end, by a tick and by the block's
reset. -/

namespace Sys2Proof.Machine

theorem trackTrace_append (dev : Addr7) (l m : List BusSym) :
    trackTrace dev (l ++ m) = (trackTrace dev l).bind fun p => m.foldlM (track dev) p := by
  simp [trackTrace, List.foldlM_append]

theorem trackOf_closed {s : State} (h : s.pos = .closed) : trackOf s = .closed := by simp [trackOf, h]

/-- The address bytes of the two directions differ, so a trace tells a READ from a WRITE. -/
theorem addrByteW_ne_addrByteR (dev : Addr7) : addrByteW dev ≠ addrByteR dev := by
  intro h
  have := congrArg BitVec.toNat h
  simp only [addrByteW, addrByteR, BitVec.toNat_append, ← Nat.shiftLeft_add_eq_or_of_lt (show (0#1).toNat < 2 ^ 1 by decide),
    ← Nat.shiftLeft_add_eq_or_of_lt (show (1#1).toNat < 2 ^ 1 by decide)] at this
  simp at this

/-- What the host can read, the parameters and the latch: what a running operation leaves alone between its start and its end. -/
structure SameVisible (s t : State) : Prop where
  cfg : t.cfg = s.cfg
  busy : t.busy = s.busy
  done : t.done = s.done
  mvalid : t.mvalid = s.mvalid
  snvalid : t.snvalid = s.snvalid
  err : t.err = s.err
  mode : t.mode = s.mode
  temp : t.temp = s.temp
  hum : t.hum = s.hum
  rawt : t.rawt = s.rawt
  rawh : t.rawh = s.rawh
  serial : t.serial = s.serial
  lop : t.lop = s.lop

/-- On the path of an operation a returned value is at most a transaction's outcome (10_state.md R40). -/
theorem onPath.nothing_kept {s : State} (h : onPath s) : s.ret = .none ∨ s.ret = .ok ∨ s.ret = .busError := by
  unfold onPath at h
  split at h
  · exact .inl h.2.2.2.2.2.2.2
  · exact .inl h.2.2
  · obtain ⟨_, _, h, _⟩ := h
    unfold onWritePath at h
    split at h <;> first | exact h | exact .inl h | exact .inl h.2 | exact h.elim
  · obtain ⟨_, _, _, _, h⟩ := h; exact .inl h
  · obtain ⟨_, _, _, _, h⟩ := h
    unfold onReadPath at h
    split at h <;> first | exact h | exact .inl h.1 | exact .inl h.2 | exact h.elim
  · obtain ⟨_, _, _, _, _, h⟩ := h; exact .inl h

/-- The agents' own fields are in no part of the invariant. -/
theorem Inv.of_agents {s t : State} (h : Inv s)
    (e : t = { s with inputs := t.inputs, reads := t.reads, acks := t.acks, bytes := t.bytes, fresh := t.fresh }) : Inv t := by
  rw [e]
  obtain ⟨h1, h2, h3, h4, h5, h6, h7, h8, h9, h10, h11, hk, h12, h13⟩ := h
  exact ⟨h1, h2, h3, h4, h5, h6, h7, h8, h9, h10, h11, hk, fun hb op ho => by have := h12 hb op ho; cases op <;> exact this, h13⟩

/-- A step inside an operation keeps the invariant if what it does to the hidden state keeps the hidden part. -/
theorem Inv.of_visible {s t : State} (h : Inv s) (hb : s.busy = true) (e : SameVisible s t) (hph : t.phase ≠ .idle)
    (hl : isOpen t.pos = false → t.sclOut = .released ∧ t.sdaOut = .released) (hd : t.phase ≠ .settle → t.dly = 0) (hon : onPath t)
    (htr : trackTrace t.cfg.devAddr t.trace = some (trackOf t)) : Inv t where
  busy_iff_phase := by simp [e.busy, hb, hph]
  not_busy_and_done := by rw [e.busy, e.done]; exact h.not_busy_and_done
  err_clear_while_busy := by rw [e.busy, e.err]; exact h.err_clear_while_busy
  lines_released := hl
  delay_only_in_settle := hd
  measurement_valid := by rw [e.mvalid, e.rawt, e.rawh, e.temp, e.hum]; exact h.measurement_valid
  measurement_zero := by rw [e.mvalid, e.rawt, e.rawh, e.temp, e.hum]; exact h.measurement_zero
  serial_valid := by rw [e.snvalid, e.serial]; exact h.serial_valid
  serial_zero := by rw [e.snvalid, e.serial]; exact h.serial_zero
  periodic_only_with_option := by rw [e.mode, e.cfg]; exact h.periodic_only_with_option
  on_path := hon
  nothing_kept := hon.nothing_kept
  own_cleared := by
    intro _ op ho
    have := h.own_cleared hb op (e.lop ▸ ho)
    cases op <;> simpa only [ownCleared, e.mode, e.snvalid, e.mvalid, e.cfg] using this
  trace_well_formed := htr

theorem complete_quiescent (code : ErrCode) (s : State) : Quiescent (complete code s) := by simp [Quiescent, complete]

/-- `complete` establishes the hidden part of the invariant; the rest it leaves as it finds it (44_session_ops.md R232). -/
theorem complete_inv (code : ErrCode) (s : State)
    (hm : s.mvalid = true → tOk s.rawt = true ∧ s.temp = tWord s.rawt ∧ s.hum = hWord s.rawh)
    (hz : s.mvalid = false → s.temp = 0#16 ∧ s.hum = 0#16 ∧ s.rawt = 0#16 ∧ s.rawh = 0#16)
    (hs : s.snvalid = true → s.serial ≠ 0xFFFFFFFF#32) (hsz : s.snvalid = false → s.serial = 0#32)
    (hp : s.mode = .periodicMeasuring → s.cfg.hasPeriodicStart = true)
    (htr : trackTrace s.cfg.devAddr s.trace = some .closed) : Inv (complete code s) where
  busy_iff_phase := by simp [complete]
  not_busy_and_done := by simp [complete]
  err_clear_while_busy := by simp [complete]
  lines_released := by simp [complete]
  delay_only_in_settle := by simp [complete]
  measurement_valid := hm
  measurement_zero := hz
  serial_valid := hs
  serial_zero := hsz
  periodic_only_with_option := hp
  on_path := complete_quiescent code s
  nothing_kept := .inl rfl
  own_cleared := by simp [complete]
  trace_well_formed := htr

/-- An abort where no transaction is open keeps the invariant (60_exceptions.md R266). -/
theorem abort_inv {s : State} (h : Inv s) (code : ErrCode) (hp : trackOf s = .closed) : Inv (abort code s) :=
  complete_inv code _ h.measurement_valid h.measurement_zero h.serial_valid h.serial_zero h.periodic_only_with_option
    (hp ▸ h.trace_well_formed)

/-- With `BUSY = 0` the block is quiescent (70_reset_and_hazards.md R306). -/
theorem Inv.quiescent {s : State} (h : Inv s) (hb : s.busy = false) : Quiescent s := by
  have hp : s.phase = .idle := by
    cases hp : s.phase <;> first | rfl | (have := h.busy_iff_phase.2 (by rw [hp]; simp); simp_all)
  have := h.on_path
  unfold onPath at this
  rwa [hp] at this

theorem refuseOp_inv {s : State} (h : Inv s) (hb : s.busy = false) : Inv (refuseOp s) := by
  have e := trackOf_closed (h.quiescent hb).2.2.2.2.2.2.1
  exact complete_inv _ _ h.measurement_valid h.measurement_zero h.serial_valid h.serial_zero h.periodic_only_with_option
    (e ▸ h.trace_well_formed)

theorem admitted_pstart {rate : BitVec 3} {rep : Rep} {s : State} (h : admitted (.pstart rate rep) s = true) :
    s.cfg.hasPeriodicStart = true ∧ s.mode ≠ .uninitialized := by
  simp [admitted] at h
  exact ⟨h.1.1, h.2⟩

theorem beginOp_inv (op : HostOp) {s : State} (h : Inv s) (hb : s.busy = false) (ha : admitted op s = true) :
    Inv (beginOp op (clearEnded s)) := by
  obtain ⟨h1, h2, h3, h4, h5, h6, h7, h8⟩ := h.quiescent hb
  have ht := h.trace_well_formed
  rw [trackOf_closed h7] at ht
  have hlo : latched (beginOp op (clearEnded s)).lop = some op := by
    rw [show (beginOp op (clearEnded s)).lop = latchOf op by cases op <;> rfl, latched_latchOf]
  have hpos : (beginOp op (clearEnded s)).pos = .closed := by cases op <;> rfl
  constructor
  · cases op <;> simp [beginOp, clearOwn, firstPhase]
  · intro _; cases op <;> rfl
  · intro _; cases op <;> rfl
  · intro _; cases op <;> exact ⟨h5, h6⟩
  · intro _; cases op <;> exact h3
  · cases op <;> first | exact h.measurement_valid | (intro hh; simp [beginOp, clearOwn] at hh)
  · cases op <;> first | exact h.measurement_zero | (intro _; exact ⟨rfl, rfl, rfl, rfl⟩)
  · cases op <;> first | exact h.serial_valid | (intro hh; simp [beginOp, clearOwn] at hh)
  · cases op <;> first | exact h.serial_zero | (intro _; rfl)
  · cases op <;> first | exact h.periodic_only_with_option | (intro hh; simp [beginOp, clearOwn] at hh)
  · unfold onPath
    rw [show (beginOp op (clearEnded s)).phase = firstPhase op by cases op <;> rfl]
    have hret : (beginOp op (clearEnded s)).ret = .none := by cases op <;> rfl
    cases op <;> simp only [firstPhase] <;> simp [hlo, hpos, hret, onWritePath]
  · cases op <;> exact .inl rfl
  · intro _ op' ho
    rw [hlo] at ho
    cases ho
    cases op with
    | pstart rate rep => have := admitted_pstart ha; exact this
    | _ => rfl
  · rw [trackOf_closed hpos]
    cases op <;> exact ht

/-- The start step keeps the invariant, whether the operation begins, is refused or is ignored (44_session_ops.md R231). -/
theorem startOp_inv (op : HostOp) {s : State} (h : Inv s) : Inv (startOp op s) := by
  unfold startOp
  split
  · exact h
  · rename_i hb
    simp only [Bool.not_eq_true] at hb
    split
    · rename_i ha
      exact beginOp_inv op h hb ha
    · exact refuseOp_inv h hb

/-- What a write of `OP` runs: an operation's start step, or the refusal of an illegal word (30_encoding.md R95). -/
theorem exec_decodeOp (w : Byte) (s : State) :
    (∃ op, exec (decodeOp w) s = .next (startOp op s)) ∨ exec (decodeOp w) s = .next (if s.busy then s else refuseOp s) := by
  unfold decodeOp
  split
  · split
    · exact .inl ⟨_, rfl⟩
    · exact .inr rfl
  · split
    · exact .inl ⟨_, rfl⟩
    · exact .inr rfl
  · split
    · split
      · rename_i rep _; cases rep <;> exact .inl ⟨_, rfl⟩
      · exact .inr rfl
    · exact .inr rfl
  · split
    · exact .inl ⟨_, rfl⟩
    · exact .inr rfl
  · exact .inr rfl

/-- A tick keeps the invariant (60_exceptions.md R271). -/
theorem tick_inv {s : State} (h : Inv s) : Inv (tick s) := by
  obtain ⟨h1, h2, h3, h4, h5, h6, h7, h8, h9, h10, h11, hk, h12, h13⟩ := h
  refine ⟨h1, h2, h3, h4, ?_, h6, h7, h8, h9, h10, ?_, hk, fun hb op ho => by have := h12 hb op ho; cases op <;> exact this, h13⟩
  · intro hp
    have hp : s.phase ≠ .settle := hp
    simp only [tick, if_neg hp]
    exact h5 hp
  · unfold onPath at h11 ⊢
    cases hp : s.phase
    case idle =>
      simp only [hp] at h11
      obtain ⟨a1, a2, a3, a4, a5, a6, a7, a8⟩ := h11
      simp [tick, hp, Quiescent, a1, a3, a4, a5, a6, a7, a8, isOpen]
    all_goals (simp only [tick, hp] at h11 ⊢; exact h11)

/-- The block's reset keeps the invariant: the trace it leaves is closed (70_reset_and_hazards.md R292). -/
theorem blockReset_inv {s : State} (h : Inv s) : Inv (blockReset s) := by
  have ht := h.trace_well_formed
  refine ⟨by simp [blockReset, State.reset], by simp [blockReset, State.reset], by simp [blockReset, State.reset],
    by simp [blockReset, State.reset], by simp [blockReset, State.reset], by simp [blockReset, State.reset],
    by simp [blockReset, State.reset], by simp [blockReset, State.reset], by simp [blockReset, State.reset],
    by simp [blockReset, State.reset], by simp [blockReset, State.reset, onPath, Quiescent], .inl rfl, by simp [blockReset, State.reset], ?_⟩
  rw [show trackOf (blockReset s) = .closed from rfl]
  show trackTrace s.cfg.devAddr (if isOpen s.pos then s.trace ++ [.abort] else s.trace) = _
  unfold trackOf at ht
  cases hp : s.pos with
  | closed | loaded => rw [hp] at ht; exact ht
  | opened | payload i => rw [hp] at ht; rw [if_pos (by rfl), trackTrace_append, ht]; rfl
  | reading =>
    rw [hp] at ht
    rw [if_pos (by rfl), trackTrace_append, ht]
    simp only
    split <;> rfl
  | failing a => rw [hp] at ht; rw [if_pos (by rfl), trackTrace_append, ht]; cases a <;> rfl

end Sys2Proof.Machine
end

