-- ==== Sys2Proof/Laws/PerInstr.lean ====
section
/-! SUPPORT. Facts about the syntax made per instruction: how many bytes an encoding has (30_encoding.md R90). -/

namespace Sys2Proof.Laws

/-- The length in bytes of a format (30_encoding.md R90, R108): one length each. -/
def formatLength : Format → Nat
  | .opw | .addrb => 1
  | .cmd16 => 2
  | .none => 0

/-- An instruction's encoding has its format's length. -/
def EncodeLength.Statement (i : Instr) : Prop := (encode i).length = formatLength i.format

theorem EncodeLength.init : EncodeLength.Statement (.init) := rfl
theorem EncodeLength.rdsn : EncodeLength.Statement (.rdsn) := rfl
theorem EncodeLength.measH : EncodeLength.Statement (.measH) := rfl
theorem EncodeLength.measM : EncodeLength.Statement (.measM) := rfl
theorem EncodeLength.measL : EncodeLength.Statement (.measL) := rfl
theorem EncodeLength.pstart (rate : BitVec 3) (rep : Rep) : EncodeLength.Statement (.pstart rate rep) := rfl
theorem EncodeLength.illegal (w : Byte) : EncodeLength.Statement (.illegal w) := rfl
theorem EncodeLength.wait : EncodeLength.Statement (.wait) := rfl
theorem EncodeLength.write (addr : Addr7) (bytes : List Byte) : EncodeLength.Statement (.write addr bytes) := rfl
theorem EncodeLength.read (addr : Addr7) (len : Nat) : EncodeLength.Statement (.read addr len) := rfl
theorem EncodeLength.sendCmd (cmd : Command) : EncodeLength.Statement (.sendCmd cmd) := rfl
theorem EncodeLength.readReply (byteCount : Nat) : EncodeLength.Statement (.readReply byteCount) := rfl
theorem EncodeLength.delay (ms : Nat) : EncodeLength.Statement (.delay ms) := rfl
theorem EncodeLength.crc8 (b0 : Byte) (b1 : Byte) (seed : Byte) : EncodeLength.Statement (.crc8 b0 b1 seed) := rfl
theorem EncodeLength.checkGroup (d0 : Byte) (d1 : Byte) (c : Byte) : EncodeLength.Statement (.checkGroup d0 d1 c) := rfl
theorem EncodeLength.checkFrame : EncodeLength.Statement (.checkFrame) := rfl
theorem EncodeLength.convT (rawT : W16) : EncodeLength.Statement (.convT rawT) := rfl
theorem EncodeLength.convRh (rawH : W16) : EncodeLength.Statement (.convRh rawH) := rfl
theorem EncodeLength.tOk (rawT : W16) : EncodeLength.Statement (.tOk rawT) := rfl
theorem EncodeLength.hOk (rawH : W16) : EncodeLength.Statement (.hOk rawH) := rfl
theorem EncodeLength.decodeMeas : EncodeLength.Statement (.decodeMeas) := rfl
theorem EncodeLength.decodeSerialRaw4 : EncodeLength.Statement (.decodeSerialRaw4) := rfl
theorem EncodeLength.decodeSerialChecked6 : EncodeLength.Statement (.decodeSerialChecked6) := rfl
theorem EncodeLength.addrbW (addr : Addr7) : EncodeLength.Statement (.addrbW addr) := rfl
theorem EncodeLength.addrbR (addr : Addr7) : EncodeLength.Statement (.addrbR addr) := rfl
theorem EncodeLength.cmdSoftReset : EncodeLength.Statement (.cmdSoftReset) := rfl
theorem EncodeLength.cmdReadSerial : EncodeLength.Statement (.cmdReadSerial) := rfl
theorem EncodeLength.cmdSsStretchH : EncodeLength.Statement (.cmdSsStretchH) := rfl
theorem EncodeLength.cmdSsStretchM : EncodeLength.Statement (.cmdSsStretchM) := rfl
theorem EncodeLength.cmdSsStretchL : EncodeLength.Statement (.cmdSsStretchL) := rfl
theorem EncodeLength.cmdSsNostretchH : EncodeLength.Statement (.cmdSsNostretchH) := rfl
theorem EncodeLength.cmdSsNostretchM : EncodeLength.Statement (.cmdSsNostretchM) := rfl
theorem EncodeLength.cmdSsNostretchL : EncodeLength.Statement (.cmdSsNostretchL) := rfl
theorem EncodeLength.cmdPeriodicH0 : EncodeLength.Statement (.cmdPeriodicH0) := rfl
theorem EncodeLength.cmdPeriodicM0 : EncodeLength.Statement (.cmdPeriodicM0) := rfl
theorem EncodeLength.cmdPeriodicL0 : EncodeLength.Statement (.cmdPeriodicL0) := rfl
theorem EncodeLength.cmdPeriodicH1 : EncodeLength.Statement (.cmdPeriodicH1) := rfl
theorem EncodeLength.cmdPeriodicM1 : EncodeLength.Statement (.cmdPeriodicM1) := rfl
theorem EncodeLength.cmdPeriodicL1 : EncodeLength.Statement (.cmdPeriodicL1) := rfl
theorem EncodeLength.cmdPeriodicH2 : EncodeLength.Statement (.cmdPeriodicH2) := rfl
theorem EncodeLength.cmdPeriodicM2 : EncodeLength.Statement (.cmdPeriodicM2) := rfl
theorem EncodeLength.cmdPeriodicL2 : EncodeLength.Statement (.cmdPeriodicL2) := rfl
theorem EncodeLength.cmdPeriodicH3 : EncodeLength.Statement (.cmdPeriodicH3) := rfl
theorem EncodeLength.cmdPeriodicM3 : EncodeLength.Statement (.cmdPeriodicM3) := rfl
theorem EncodeLength.cmdPeriodicL3 : EncodeLength.Statement (.cmdPeriodicL3) := rfl
theorem EncodeLength.cmdPeriodicH4 : EncodeLength.Statement (.cmdPeriodicH4) := rfl
theorem EncodeLength.cmdPeriodicM4 : EncodeLength.Statement (.cmdPeriodicM4) := rfl
theorem EncodeLength.cmdPeriodicL4 : EncodeLength.Statement (.cmdPeriodicL4) := rfl
theorem EncodeLength.cmdFetch : EncodeLength.Statement (.cmdFetch) := rfl

end Sys2Proof.Laws
end

