-- ==== Sys2Proof/Laws/Sequencer.lean ====
section
/-! SUPPORT. Everything a step of the sequencer can do from a state of the invariant, said once (44_session_ops.md R240): the operation goes on and
nothing visible changes, or it ends by `complete` in one of five ways. -/

namespace Sys2Proof.Machine

/-- The step of a running operation that goes on: nothing visible changes, the trace grows by at most one symbol, the invariant is kept. -/
structure GoesOn (s t : State) : Prop where
  visible : SameVisible s t
  inv : Inv t
  trace : ∃ w, w.length ≤ 1 ∧ t.trace = s.trace ++ w
  phase : t.phase ≠ .idle
  inputs : t.inputs = s.inputs
  reads : t.reads = s.reads

/-- What a step of the sequencer inside an operation can do. -/
inductive SeqOutcome (s : State) : State → Prop where
  | goesOn (t : State) : GoesOn s t → SeqOutcome s t
  | finishInit : latched s.lop = some .init → trackOf s = .closed → SeqOutcome s (finishInit s)
  | finishPstart (rate : BitVec 3) (rep : Rep) : latched s.lop = some (.pstart rate rep) → trackOf s = .closed → SeqOutcome s (finishPstart s)
  | finishMeas (rep : Rep) (rawT rawH : W16) : latched s.lop = some (.meas rep) → tOk rawT = true → trackOf s = .closed →
      SeqOutcome s (finishMeas (tWord rawT) (hWord rawH) rawT rawH s)
  | finishRdsn (sn : W32) : latched s.lop = some .rdsn → sn ≠ 0xFFFFFFFF#32 → trackOf s = .closed → SeqOutcome s (finishRdsn sn s)
  | fails (code : ErrCode) : code ≠ .ok → code ≠ .illegalOp → trackOf s = .closed → SeqOutcome s (abort code s)

/-- The step answers a next state of one of those kinds. -/
def seqGood (s : State) (r : Host.Outcome State Fault Refusal) : Prop := ∃ t, r = .next t ∧ SeqOutcome s t

/-- How to show that a step goes on. -/
theorem goesOn {s t : State} (h : Inv s) (hb : s.busy = true) (e : SameVisible s t) (hi : t.inputs = s.inputs) (hr : t.reads = s.reads)
    (hph : t.phase ≠ .idle) (hl : isOpen t.pos = false → t.sclOut = .released ∧ t.sdaOut = .released)
    (hd : t.phase ≠ .settle → t.dly = 0) (hon : onPath t) (w : List BusSym) (hlen : w.length ≤ 1) (htr : t.trace = s.trace ++ w)
    (hw : w.foldlM (track s.cfg.devAddr) (trackOf s) = some (trackOf t)) : seqGood s (.next t) := by
  refine ⟨t, rfl, .goesOn t ⟨e, h.of_visible hb e hph hl hd hon ?_, ⟨w, hlen, htr⟩, hph, hi, hr⟩⟩
  rw [htr, e.cfg, trackTrace_append, h.trace_well_formed]
  exact hw

section phases

variable {s : State} (h : Inv s) (hb : s.busy = true)
include h hb

theorem seqStep_cfg (hp : s.phase = .cfg) : seqGood s (seqStep s) := by
  have ho := h.on_path
  simp only [onPath, hp] at ho
  simp only [seqStep, hp]
  refine goesOn h hb (by constructor <;> simp) (by simp) (by simp) (by simp) (by simp) ?_ ?_ [] (by simp)
    (by simp) ?_
  · intro _; exact h.delay_only_in_settle (by rw [hp]; simp)
  · simp only [onPath]; exact ⟨.init, ho.1, by simp [onWritePath], by simp⟩
  · simp [trackOf, ho.2.1]

theorem enterSettle_goesOn (ms : Nat) (op : HostOp) (h1 : latched s.lop = some op) (h2 : ∀ rate rep, op ≠ .pstart rate rep)
    (hc : s.pos = .closed) : seqGood s (.next (enterSettle ms s)) := by
  refine goesOn h hb (by constructor <;> simp) (by simp) (by simp) (by simp [enterSettle])
    (fun _ => h.lines_released (by rw [hc]; rfl)) (by simp [enterSettle]) ?_ [] (by simp) (by simp [enterSettle]) ?_
  · simp only [onPath, enterSettle]; exact ⟨op, h1, h2, hc, trivial⟩
  · simp [trackOf, enterSettle, hc]

theorem seqStep_settle (hp : s.phase = .settle) : seqGood s (seqStep s) := by
  have ho := h.on_path
  simp only [onPath, hp] at ho
  obtain ⟨op, h1, h2, h3, h4⟩ := ho
  simp only [seqStep, hp]
  by_cases hd : s.dly = 0
  · rw [if_pos hd]
    simp only [afterSettle, withLatched, h1]
    cases op with
    | pstart rate rep => exact absurd rfl (h2 rate rep)
    | init => exact ⟨_, rfl, .finishInit h1 (trackOf_closed h3)⟩
    | rdsn | meas rep =>
      refine goesOn h hb (by constructor <;> simp) (by simp) (by simp) (by simp)
        (fun _ => h.lines_released (by rw [h3]; rfl)) (fun _ => hd) ?_ [] (by simp) (by simp) ?_
      · simp only [onPath]; exact ⟨_, _, h1, rfl, by simp [onReadPath]⟩
      · simp [trackOf, h3]
  · rw [if_neg hd]
    exact ⟨s, rfl, .goesOn s ⟨⟨rfl, rfl, rfl, rfl, rfl, rfl, rfl, rfl, rfl, rfl, rfl, rfl, rfl⟩, h, ⟨[], by simp, by simp⟩,
      by rw [hp]; simp, rfl, rfl⟩⟩

theorem afterWrite_good (op : HostOp) (h1 : latched s.lop = some op) (hc : s.pos = .closed) : seqGood s (afterWrite s) := by
  simp only [afterWrite, withLatched, h1]
  cases op with
  | init =>
    by_cases hz : s.cfg.tSettleResetMs = 0
    · simp only [hz, if_true]; exact ⟨_, rfl, .finishInit h1 (trackOf_closed hc)⟩
    · simp only [hz, if_false]; exact enterSettle_goesOn h hb _ _ h1 (by simp) hc
  | rdsn | meas rep => exact enterSettle_goesOn h hb _ _ h1 (by simp) hc
  | pstart rate rep => exact ⟨_, rfl, .finishPstart rate rep h1 (trackOf_closed hc)⟩

end phases

section write

variable {s : State} (h : Inv s) (hb : s.busy = true) (hp : s.phase = .write) {op : HostOp} (h1 : latched s.lop = some op)
include h hb hp h1

theorem loadCommand_goesOn (hc : s.pos = .closed) (hr : s.ret = .none) :
    seqGood s (.next { loadCommand (commandOf op) s with pos := .loaded }) := by
  refine goesOn h hb (by constructor <;> simp) (by simp) (by simp) (by simp [loadCommand])
    (fun _ => h.lines_released (by rw [hc]; rfl)) (by simp [h.delay_only_in_settle (show s.phase ≠ .settle by rw [hp]; simp)]) ?_ [] (by simp) (by simp) ?_
  · simp only [onPath, loadCommand]; exact ⟨op, h1, by simpa [onWritePath] using hr, fun _ => rfl⟩
  · simp [trackOf, hc]

theorem busStart_goesOn (hc : s.pos = .loaded) (hr : s.ret = .none) (htx : s.txbuf = txOf (commandWord s.cfg (commandOf op))) :
    seqGood s (.next (busStart s)) := by
  refine goesOn h hb (by constructor <;> simp) (by simp) (by simp) (by simp [hp]) (by simp [busStart, isOpen])
    (by simp [h.delay_only_in_settle (show s.phase ≠ .settle by rw [hp]; simp)]) ?_ [.start] (by simp) (by simp) ?_
  · simp only [onPath, busStart_phase, hp]; exact ⟨op, by simpa using h1, by simpa [onWritePath] using hr, fun _ => by simpa using htx⟩
  · simp [trackOf, hc, busStart, track]

/-- A byte of a WRITE goes out: from `pos` on, an `ACK` leads to `next`, any other answer to `failing`. -/
theorem sendByte_goesOn (b : Byte) (next : Nat) (hn : next ≤ 2) (hr : s.ret = .none)
    (htx : s.txbuf = txOf (commandWord s.cfg (commandOf op)))
    (hw : ∀ a, track s.cfg.devAddr (trackOf s) (.sent b a) = some (trackAnswer (.writing next) a)) :
    seqGood s (.next { sendByte b s with pos := match ackAnswer s with | .ack => .payload next | a => .failing a }) := by
  refine goesOn h hb (by constructor <;> simp) (by simp) (by simp) (by simp [hp]) (by cases ackAnswer s <;> simp [isOpen])
    (by simp [h.delay_only_in_settle (show s.phase ≠ .settle by rw [hp]; simp)]) ?_ [.sent b (ackAnswer s)] (by simp) (by simp) ?_
  · simp only [onPath, sendByte_phase, hp]
    refine ⟨op, by simpa using h1, ?_, fun _ => by simpa using htx⟩
    cases ackAnswer s <;> simp [onWritePath, hr, hn]
  · simp only [List.foldlM_cons, hw]
    cases ha : ackAnswer s <;> simp [trackAnswer, trackOf]

theorem writeEnd_goesOn (x : BusSym) (r : SubResult) (hr : r = .ok ∨ r = .busError) (hw : track s.cfg.devAddr (trackOf s) x = some .closed)
    (t : State) (ht : t = { release (emit x s) with pos := .closed }) : seqGood s (.next (returning r t)) := by
  subst ht
  refine goesOn h hb (by constructor <;> simp) (by simp) (by simp) (by simp [hp]) (by simp)
    (by simp [h.delay_only_in_settle (show s.phase ≠ .settle by rw [hp]; simp)]) ?_ [x] (by simp) (by simp) ?_
  · simp only [onPath, returning_phase, release_phase, emit_phase, hp]
    exact ⟨op, by simpa using h1, by simpa [onWritePath] using .inr hr, by simp⟩
  · simp only [List.foldlM_cons, hw]; simp [trackOf]

end write

theorem seqStep_write {s : State} (h : Inv s) (hb : s.busy = true) (hp : s.phase = .write) : seqGood s (seqStep s) := by
  have ho := h.on_path
  simp only [onPath, hp] at ho
  obtain ⟨op, h1, h2, h3⟩ := ho
  simp only [seqStep, hp, seqWrite]
  cases hpos : s.pos with
  | reading => rw [hpos] at h2; exact h2.elim
  | closed =>
    simp only [hpos, onWritePath] at h2
    rcases h2 with hr | hr | hr
    · simp only [hr, withLatched, h1]; exact loadCommand_goesOn h hb hp h1 hpos hr
    · simp only [hr]; exact afterWrite_good h hb op h1 hpos
    · simp only [hr]; exact ⟨_, rfl, .fails _ (by simp) (by simp) (trackOf_closed hpos)⟩
  | loaded =>
    simp only [hpos, onWritePath] at h2 h3
    exact busStart_goesOn h hb hp h1 hpos h2 (h3 (by simp))
  | opened =>
    simp only [hpos, onWritePath] at h2 h3
    exact sendByte_goesOn h hb hp h1 _ 0 (by omega) h2 (h3 (by simp)) (by simp [trackOf, hpos, track])
  | payload i =>
    simp only [hpos, onWritePath] at h2 h3
    obtain ⟨hi, hr⟩ := h2
    have hi : i = 0 ∨ i = 1 ∨ i = 2 := by omega
    rcases hi with rfl | rfl | rfl
    · exact sendByte_goesOn h hb hp h1 _ 1 (by omega) hr (h3 (by simp)) (by simp [trackOf, hpos, track])
    · exact sendByte_goesOn h hb hp h1 _ 2 (by omega) hr (h3 (by simp)) (by simp [trackOf, hpos, track])
    · exact writeEnd_goesOn h hb hp h1 .stop _ (.inl rfl) (by simp [trackOf, hpos, track]) _ rfl
  | failing a =>
    simp only [hpos, onWritePath] at h2 h3
    obtain ⟨ha, hr⟩ := h2
    cases a with
    | ack => exact absurd rfl ha
    | nack => exact writeEnd_goesOn h hb hp h1 .stop _ (.inr rfl) (by simp [trackOf, hpos, track]) _ rfl
    | timeout => exact writeEnd_goesOn h hb hp h1 .abort _ (.inr rfl) (by simp [trackOf, hpos, track]) _ rfl

/-- A reply has four or six bytes (20_memory.md R64). -/
theorem replyLength_four_or_six {c : Config} {op : HostOp} {n : Nat} (h : replyLength c op = some n) : n = 4 ∨ n = 6 := by
  cases op <;> simp only [replyLength, Option.some.injEq, reduceCtorEq] at h
  · split at h <;> omega
  · omega

section read

variable {s : State} (h : Inv s) (hb : s.busy = true) (hp : s.phase = .read) {op : HostOp} {n : Nat} (h1 : latched s.lop = some op)
  (hn : replyLength s.cfg op = some n)
include h hb hp h1 hn

theorem readStart_goesOn (hc : s.pos = .closed) (hr : s.ret = .none) : seqGood s (.next (readStart n s)) := by
  refine goesOn h hb (by constructor <;> simp) (by simp) (by simp) (by simp [readStart, hp])
    (by simp [readStart, busStart, isOpen]) (by simp [h.delay_only_in_settle (show s.phase ≠ .settle by rw [hp]; simp)]) ?_ [.start] (by simp) (by simp) ?_
  · simp only [onPath, readStart, busStart_phase, hp]; exact ⟨op, n, by simpa using h1, by simpa using hn, by simp [onReadPath, busStart, hr]⟩
  · simp [trackOf, hc, readStart, busStart, track]

theorem toDecode_goesOn (hc : s.pos = .closed) : seqGood s (.next { s with phase := .decode, ret := .none }) := by
  refine goesOn h hb (by constructor <;> simp) (by simp) (by simp) (by simp)
    (fun _ => h.lines_released (by rw [hc]; rfl)) (by simp [h.delay_only_in_settle (show s.phase ≠ .settle by rw [hp]; simp)]) ?_ [] (by simp) (by simp) ?_
  · exact ⟨op, n, h1, hn, hc, rfl⟩
  · simp [trackOf, hc]

theorem addressRead_goesOn (hc : s.pos = .opened) (hr : s.ret = .none) (hl : s.len = n) (hi : s.idx = 0) :
    seqGood s (.next { sendByte (addrByteR s.cfg.devAddr) s with pos := match ackAnswer s with | .ack => .reading | a => .failing a }) := by
  have hne : ¬ addrByteR s.cfg.devAddr = addrByteW s.cfg.devAddr := fun e => addrByteW_ne_addrByteR _ e.symm
  have hn0 : 0 < n := by have := replyLength_four_or_six hn; omega
  refine goesOn h hb (by constructor <;> simp) (by simp) (by simp) (by simp [hp]) (by cases ackAnswer s <;> simp [isOpen])
    (by simp [h.delay_only_in_settle (show s.phase ≠ .settle by rw [hp]; simp)]) ?_ [.sent (addrByteR s.cfg.devAddr) (ackAnswer s)] (by simp) (by simp) ?_
  · simp only [onPath, sendByte_phase, hp]
    refine ⟨op, n, by simpa using h1, by simpa using hn, ?_⟩
    cases ackAnswer s <;> simp [onReadPath, hr, hl, hi]
  · simp only [trackOf, hc, List.foldlM_cons, track, hne, if_false, if_true]
    cases ackAnswer s <;> simp [trackAnswer, hl, hi, hn0]

theorem receiveByte_goesOn (v : Byte) (hc : s.pos = .reading) (hr : s.ret = .none) (hl : s.len = n) (hlt : s.idx < s.len) :
    seqGood s (.next (receiveByte v s)) := by
  have hn46 := replyLength_four_or_six hn
  refine goesOn h hb (by constructor <;> simp) (by simp) (by simp) (by simp [hp]) (by simp [hc, isOpen])
    (by simp [h.delay_only_in_settle (show s.phase ≠ .settle by rw [hp]; simp)]) ?_ [if s.idx + 1 = s.len then .receivedNack v else .receivedAck v] (by simp) (by simp) ?_
  · simp only [onPath, receiveByte_phase, hp]
    refine ⟨op, n, by simpa using h1, by simpa using hn, ?_⟩
    simp only [onReadPath, receiveByte_pos, hc]
    simp only [receiveByte_ret, receiveByte_len, receiveByte_idx]; exact ⟨hr, hl, by omega⟩
  · simp only [trackOf, receiveByte_pos, hc, hlt, if_true, receiveByte_idx, receiveByte_len]
    by_cases hlast : s.idx + 1 = s.len
    · simp [hlast, track, show s.idx = 3 ∨ s.idx = 5 by omega]
    · simp [hlast, track, show s.idx + 1 < s.len by omega, show s.idx < 5 by omega]

theorem receiveTimeout_goesOn (hc : s.pos = .reading) (hr : s.ret = .none) (hlt : s.idx < s.len) :
    seqGood s (.next { receiveTimeout s with pos := .failing .timeout }) := by
  refine goesOn h hb (by constructor <;> simp) (by simp) (by simp) (by simp [hp]) (by simp [isOpen])
    (by simp [h.delay_only_in_settle (show s.phase ≠ .settle by rw [hp]; simp)]) ?_ [.receiveTimeout] (by simp) (by simp) ?_
  · simp only [onPath, receiveTimeout_phase, hp]; exact ⟨op, n, by simpa using h1, by simpa using hn, by simp [onReadPath, hr]⟩
  · simp [trackOf, hc, hlt, track]

theorem readEnd_goesOn (x : BusSym) (rx : RxBuf) (fr : Nat) (r : SubResult) (hr : r = .ok ∨ r = .busError)
    (hw : track s.cfg.devAddr (trackOf s) x = some .closed) (t : State)
    (ht : t = { release (emit x s) with pos := .closed, rxbuf := rx, fresh := fr }) : seqGood s (.next (returning r t)) := by
  subst ht
  refine goesOn h hb (by constructor <;> simp) (by simp) (by simp) (by simp [hp]) (by simp)
    (by simp [h.delay_only_in_settle (show s.phase ≠ .settle by rw [hp]; simp)]) ?_ [x] (by simp) (by simp) ?_
  · simp only [onPath, returning_phase, release_phase, emit_phase, hp]
    exact ⟨op, n, by simpa using h1, by simpa using hn, by simpa [onReadPath] using .inr hr⟩
  · simp only [List.foldlM_cons, hw]; simp [trackOf]

end read

theorem seqStep_read {s : State} (h : Inv s) (hb : s.busy = true) (hp : s.phase = .read) : seqGood s (seqStep s) := by
  have ho := h.on_path
  simp only [onPath, hp] at ho
  obtain ⟨op, n, h1, hn, h2⟩ := ho
  simp only [seqStep, hp, seqRead]
  unfold onReadPath at h2
  cases hpos : s.pos with
  | loaded | payload i => rw [hpos] at h2; exact h2.elim
  | closed =>
    simp only [hpos] at h2
    rcases h2 with hr | hr | hr
    · simp only [hr, withReplyLength, h1, hn, Option.bind_some]; exact readStart_goesOn h hb hp h1 hn hpos hr
    · simpa only [hr, hpos] using toDecode_goesOn h hb hp h1 hn hpos
    · simp only [hr]; exact ⟨_, rfl, .fails _ (by simp) (by simp) (trackOf_closed hpos)⟩
  | opened =>
    simp only [hpos] at h2
    exact addressRead_goesOn h hb hp h1 hn hpos h2.1 h2.2.1 h2.2.2
  | reading =>
    simp only [hpos] at h2
    obtain ⟨hr, hl, hi⟩ := h2
    by_cases hlt : s.idx < s.len
    · simp only [hlt, if_true]
      split
      · exact receiveByte_goesOn h hb hp h1 hn _ hpos hr hl hlt
      · exact receiveTimeout_goesOn h hb hp h1 hn hpos hr hlt
    · simp only [hlt, if_false]
      exact readEnd_goesOn h hb hp h1 hn .stop s.rxbuf s.fresh _ (.inl rfl) (by simp [trackOf, hpos, hlt, track]) _ rfl
  | failing a =>
    simp only [hpos] at h2
    obtain ⟨ha, hr⟩ := h2
    cases a with
    | ack => exact absurd rfl ha
    | nack => exact readEnd_goesOn h hb hp h1 hn .stop _ _ _ (.inr rfl) (by simp [trackOf, hpos, track]) _ rfl
    | timeout => exact readEnd_goesOn h hb hp h1 hn .abort _ _ _ (.inr rfl) (by simp [trackOf, hpos, track]) _ rfl

/-- A check in `P_DECODE` ends the operation, by the error of the first failing test or as the tests passed. -/
theorem unlessError_good {s : State} (e : Option ErrCode) (goOn : State → State) (hc : s.pos = .closed)
    (he : ∀ c, e = some c → c ≠ .ok ∧ c ≠ .illegalOp) (hg : e = none → SeqOutcome s (goOn s)) :
    seqGood s (.next (unlessError e goOn s)) := by
  cases e with
  | none => exact ⟨_, rfl, hg rfl⟩
  | some c => exact ⟨_, rfl, .fails c (he c rfl).1 (he c rfl).2 (trackOf_closed hc)⟩

theorem seqStep_decode {s : State} (h : Inv s) (hp : s.phase = .decode) : seqGood s (seqStep s) := by
  have ho := h.on_path
  simp only [onPath, hp] at ho
  obtain ⟨op, n, h1, hn, hc, hr⟩ := ho
  have ht := trackOf_closed hc
  simp only [seqStep, hp, seqDecode, withLatched, h1]
  cases op with
  | init | pstart => simp [replyLength] at hn
  | meas rep =>
    refine unlessError_good _ _ hc (fun c e => ?_) (fun e => .finishMeas rep _ _ h1 ?_ ht)
    · rcases frameOrMeas_some e with rfl | rfl <;> simp
    · exact (frameOrMeas_none e).2
  | rdsn =>
    simp only [decodeSerial]
    cases hm : s.cfg.serialMode with
    | raw4 =>
      refine unlessError_good _ _ hc (fun c e => ?_) (fun e => .finishRdsn _ h1 (serialError_none.1 e) ht)
      rw [serialError_some e]; simp
    | checked6 =>
      refine unlessError_good _ _ hc (fun c e => ?_) (fun e => .finishRdsn _ h1 (checkedSerialError_none.1 e).2 ht)
      rcases checkedSerialError_some e with rfl | rfl <;> simp

/-- Inside an operation the sequencer always has a step, and it is one of the kinds of `SeqOutcome`. -/
theorem seqStep_good {s : State} (h : Inv s) (hb : s.busy = true) : seqGood s (seqStep s) := by
  cases hp : s.phase with
  | idle => exact absurd hp (h.busy_iff_phase.1 hb)
  | cfg => exact seqStep_cfg h hb hp
  | write => exact seqStep_write h hb hp
  | settle => exact seqStep_settle h hb hp
  | read => exact seqStep_read h hb hp
  | decode => exact seqStep_decode h hp

/-- Every kind of outcome keeps the invariant. -/
theorem SeqOutcome.inv {s t : State} (h : Inv s) (hb : s.busy = true) (o : SeqOutcome s t) : Inv t := by
  cases o with
  | goesOn _ h' => exact h'.inv
  | fails code a b hc => exact abort_inv h code hc
  | finishInit hl hc =>
    exact complete_inv _ _ h.measurement_valid h.measurement_zero h.serial_valid h.serial_zero (by simp) (hc ▸ h.trace_well_formed)
  | finishPstart rate rep hl hc =>
    refine complete_inv _ _ h.measurement_valid h.measurement_zero h.serial_valid h.serial_zero (fun _ => ?_) (hc ▸ h.trace_well_formed)
    exact (h.own_cleared hb _ hl).1
  | finishMeas rep a b hl ha hc =>
    exact complete_inv _ _ (fun _ => ⟨ha, rfl, rfl⟩) (by simp) h.serial_valid h.serial_zero h.periodic_only_with_option (hc ▸ h.trace_well_formed)
  | finishRdsn sn hl hne hc =>
    exact complete_inv _ _ h.measurement_valid h.measurement_zero (fun _ => hne) (by simp) h.periodic_only_with_option (hc ▸ h.trace_well_formed)

end Sys2Proof.Machine
end

