-- ==== Sys2Proof/Laws/Run.lean ====
section
/-! SUPPORT. Runs of the machine: one step more, and two runs after each other. -/

namespace Sys2Proof.Machine

/-- With no other agent's move pending and no tick to wait for, the step is the sequencer's (log 7). -/
theorem step_of_seq {s : State} (hi : s.inputs = []) (hp : s.phase = .settle → s.dly = 0) : step s = seqStep s := by
  have : autoMove s = .seq := by
    unfold autoMove
    rw [if_neg]
    intro ⟨h1, h2⟩
    have := hp h1
    omega
  simp only [step, hi, this, runMove]

/-- With no other agent's move pending, the settle delay counts down by itself (log 7). -/
theorem step_of_tick {s : State} (hi : s.inputs = []) (hp : s.phase = .settle) (hd : 0 < s.dly) : step s = .next (tick s) := by
  simp [step, hi, autoMove, hp, hd, runMove]

theorem core_run_succ (M : Host.Core) (k : Nat) (s : M.State) : M.run (k + 1) s =
    match M.step s with
    | .next t => M.run k t
    | .fault f => .fault f
    | .refused r => .refused r := by
  cases h : M.step s <;> simp only [Host.Core.run, h]

theorem run_next {s t : State} (k : Nat) (h : step s = .next t) : Host.Core.run core (k + 1) s = Host.Core.run core k t := by
  refine (core_run_succ core k s).trans ?_
  rw [show core.step s = Host.Outcome.next t from h]

theorem run_fault {s : State} (k : Nat) {f : Fault} (h : step s = .fault f) : Host.Core.run core (k + 1) s = .fault f := by
  refine (core_run_succ core k s).trans ?_
  rw [show core.step s = Host.Outcome.fault f from h]

theorem run_refused {s : State} (k : Nat) {r : Refusal} (h : step s = .refused r) : Host.Core.run core (k + 1) s = .refused r := by
  refine (core_run_succ core k s).trans ?_
  rw [show core.step s = Host.Outcome.refused r from h]

theorem run_one {s t : State} (h : step s = .next t) : Host.Core.run core 1 s = .next t := run_next 0 h

/-- A run of `j + k` steps is a run of `j` steps and then one of `k`. -/
theorem run_add (k : Nat) : ∀ (j : Nat) (s t : State), Host.Core.run core j s = .next t →
    Host.Core.run core (j + k) s = Host.Core.run core k t := by
  intro j
  induction j with
  | zero => intro s t h; cases h; rw [Nat.zero_add]
  | succ j ih =>
    intro s t h
    rw [Nat.add_right_comm]
    cases hs : step s with
    | next u => rw [run_next _ hs] at h ⊢; exact ih u t h
    | fault f => rw [run_fault _ hs] at h; cases h
    | refused r => rw [run_refused _ hs] at h; cases h

theorem reaches_refl (s : State) : reaches s s := ⟨0, rfl⟩

theorem reaches_step {s t u : State} (h : step s = .next t) (r : reaches t u) : reaches s u := by
  obtain ⟨k, hk⟩ := r
  exact ⟨k + 1, (run_next k h).trans hk⟩

theorem reaches_trans {s t u : State} (r : reaches s t) (q : reaches t u) : reaches s u := by
  obtain ⟨j, hj⟩ := r
  obtain ⟨k, hk⟩ := q
  exact ⟨j + k, (run_add k j s t hj).trans hk⟩

end Sys2Proof.Machine
end

