-- ==== Sys2Proof/Tests/Slice0.lean ====
section
/-! SUPPORT. The model's own tests: the WellFormed smoke, the decoding of words written out from 30_encoding.md, one-step tests whose expected values
are those of 95_test_vectors.md (the vector's id stands in each docstring), and for each statement with hypotheses a concrete case that meets them. -/

namespace Sys2Proof.Tests

open Sys2Proof Sys2Proof.Machine

/-! ## WellFormed smoke: an ill-formed term for each check -/

theorem test_illegal_of_an_operation_is_refused : (Instr.illegal 0x20#8).wf = false ∧ (Instr.illegal 0x80#8).wf = false := by decide
theorem test_illegal_word_is_well_formed : (Instr.illegal 0x63#8).wf = true ∧ (Instr.illegal 0x83#8).wf = true := by decide
theorem test_write_of_bad_length_is_refused :
    (Instr.write 0x44#7 []).wf = false ∧ (Instr.write 0x44#7 [0x2C#8]).wf = false ∧ (Instr.write 0x44#7 [0x2C#8, 0x06#8, 0x00#8]).wf = false := by decide
theorem test_read_of_bad_length_is_refused :
    (Instr.read 0x44#7 0).wf = false ∧ (Instr.read 0x44#7 5).wf = false ∧ (Instr.read 0x44#7 7).wf = false := by decide
theorem test_reply_of_bad_length_is_refused : (Instr.readReply 5).wf = false ∧ (Instr.readReply 0).wf = false := by decide

/-! ## Decoding, from words written out from the spec's encodings -/

/-- VE1 to VE5. -/
theorem test_decode_operations :
    decode .opw [0b00100000#8] = .ok .init ∧ decode .opw [0b01000000#8] = .ok .rdsn ∧ decode .opw [0b01100000#8] = .ok .measH ∧
    decode .opw [0b01100001#8] = .ok .measM ∧ decode .opw [0b01100010#8] = .ok .measL := ⟨rfl, rfl, rfl, rfl, rfl⟩

/-- VE11, VE12, VE13 and P6's word: the form of PSTART. -/
theorem test_decode_pstart :
    decode .opw [0b10000000#8] = .ok (.pstart 0 .high) ∧ decode .opw [0b10010001#8] = .ok (.pstart 4 .medium) ∧
    decode .opw [0b10001000#8] = .ok (.pstart 2 .high) ∧ decode .opw [0b10011110#8] = .ok (.pstart 7 .low) := ⟨rfl, rfl, rfl, rfl⟩

/-- VE6 to VE10, VE14, VE15. -/
theorem test_decode_illegal :
    [0x63#8, 0x00#8, 0x21#8, 0x44#8, 0x64#8, 0x83#8, 0xA0#8, 0xC0#8, 0xE0#8, 0xFF#8].all (fun w => decodeOp w == .illegal w) = true := by decide

/-- VE20 to VE22. -/
theorem test_decode_address_bytes :
    decode .addrb [0b10001000#8] = .ok (.addrbW 0x44#7) ∧ decode .addrb [0b10001001#8] = .ok (.addrbR 0x44#7) ∧
    decode .addrb [0x8A#8] = .ok (.addrbW 0x45#7) ∧ decode .addrb [0x8B#8] = .ok (.addrbR 0x45#7) := ⟨rfl, rfl, rfl, rfl⟩

/-- The first eight rows of the table of 30_encoding.md R98 (VE23 to VE25), and its last. -/
theorem test_decode_commands :
    decode .cmd16 [0b00110000#8, 0b10100010#8] = .ok .cmdSoftReset ∧ decode .cmd16 [0x37#8, 0x80#8] = .ok .cmdReadSerial ∧
    decode .cmd16 [0x2C#8, 0x06#8] = .ok .cmdSsStretchH ∧ decode .cmd16 [0x2C#8, 0x0D#8] = .ok .cmdSsStretchM ∧
    decode .cmd16 [0x2C#8, 0x10#8] = .ok .cmdSsStretchL ∧ decode .cmd16 [0x24#8, 0x00#8] = .ok .cmdSsNostretchH ∧
    decode .cmd16 [0x24#8, 0x0B#8] = .ok .cmdSsNostretchM ∧ decode .cmd16 [0x24#8, 0x16#8] = .ok .cmdSsNostretchL ∧
    decode .cmd16 [0xE0#8, 0x00#8] = .ok .cmdFetch := ⟨rfl, rfl, rfl, rfl, rfl, rfl, rfl, rfl, rfl⟩

/-- The periodic rows of 30_encoding.md R98, rate indices 0 and 1. -/
theorem test_decode_periodic_low_rates :
    decode .cmd16 [0x20#8, 0x32#8] = .ok .cmdPeriodicH0 ∧ decode .cmd16 [0x20#8, 0x24#8] = .ok .cmdPeriodicM0 ∧
    decode .cmd16 [0x20#8, 0x2F#8] = .ok .cmdPeriodicL0 ∧ decode .cmd16 [0x21#8, 0x30#8] = .ok .cmdPeriodicH1 ∧
    decode .cmd16 [0x21#8, 0x26#8] = .ok .cmdPeriodicM1 ∧ decode .cmd16 [0x21#8, 0x2D#8] = .ok .cmdPeriodicL1 := ⟨rfl, rfl, rfl, rfl, rfl, rfl⟩

/-- The periodic rows of 30_encoding.md R98, rate indices 2 to 4 (VE26). -/
theorem test_decode_periodic_high_rates :
    decode .cmd16 [0x22#8, 0x36#8] = .ok .cmdPeriodicH2 ∧ decode .cmd16 [0x22#8, 0x20#8] = .ok .cmdPeriodicM2 ∧
    decode .cmd16 [0x22#8, 0x2B#8] = .ok .cmdPeriodicL2 ∧ decode .cmd16 [0x23#8, 0x34#8] = .ok .cmdPeriodicH3 ∧
    decode .cmd16 [0x23#8, 0x22#8] = .ok .cmdPeriodicM3 ∧ decode .cmd16 [0x23#8, 0x29#8] = .ok .cmdPeriodicL3 ∧
    decode .cmd16 [0x27#8, 0x37#8] = .ok .cmdPeriodicH4 ∧ decode .cmd16 [0x27#8, 0x21#8] = .ok .cmdPeriodicM4 ∧
    decode .cmd16 [0x27#8, 0x2A#8] = .ok .cmdPeriodicL4 := ⟨rfl, rfl, rfl, rfl, rfl, rfl, rfl, rfl, rfl⟩

/-- Rejections by name: a word of no command, a wrong length, a row without an encoding. -/
theorem test_decode_rejections :
    decode .cmd16 [0x00#8, 0x00#8] = .error .noSuchCommand ∧ decode .cmd16 [0x30#8] = .error .wrongLength ∧
    decode .opw [] = .error .wrongLength ∧ decode .none [] = .error .noEncoding := ⟨rfl, rfl, rfl, rfl⟩

/-! ## One step, against 95_test_vectors.md -/

/-- One field of the next state. -/
def field {α : Type} (f : State → α) : Host.Outcome State Fault Refusal → Option α
  | .next t => some (f t)
  | .fault _ | .refused _ => none

/-- The reset state with the peer's script: its acknowledge answers and its bytes. -/
def peer (acks : List Ack) (vs : List Byte) : State := { State.reset with acks := acks, bytes := vs.map .byte }

/-- The reset state with a frame in `RXBUF`. -/
def frame (b0 b1 b2 b3 b4 b5 : Byte) : State := { State.reset with rxbuf := ⟨b0, b1, b2, b3, b4, b5⟩ }

/-- The reset state with `HAS_PERIODIC_START` and a mode. -/
def periodic (m : Mode) : State := { State.reset with cfg := { Config.default with hasPeriodicStart := true }, mode := m }

/-- VO13's start state: a measurement and a serial number are held. -/
def held : State := { State.reset with
  done := true, mode := .idle, mvalid := true, snvalid := true, temp := 0x0986#16, hum := 0x13B4#16, rawt := 0x657E#16, rawh := 0x8120#16,
  serial := 0x12345678#32 }

/-- What P5's table shows of a state: `STATUS`, `ERR`, `MODE`, `TEMP`, `SERIAL`. -/
def shown (s : State) : Byte × Byte × Byte × W16 × W32 := (statusWord s, errCode s.err, modeCode s.mode, s.temp, s.serial)

/-- R231, R233: INIT starts, and falls back to `Uninitialized`; the results stay. -/
theorem test_init_starts : field shown (exec .init held) = some (0x0D#8, 0#8, 0#8, 0x0986#16, 0x12345678#32) := by decide
/-- VO16. -/
theorem test_init_ignored_while_busy : exec .init { State.reset with busy := true } = .next { State.reset with busy := true } := rfl
/-- VO7: the old serial number is not kept. -/
theorem test_rdsn_starts : field shown (exec .rdsn held) = some (0x05#8, 0#8, 1#8, 0x0986#16, 0#32) := by decide
/-- P5: the write of 0x60. -/
theorem test_measH_starts : field shown (exec .measH held) = some (0x09#8, 0#8, 1#8, 0#16, 0x12345678#32) := by decide
theorem test_measM_latches : field (·.lop) (exec .measM held) = some ⟨3#3, 0#3, 1#2⟩ := by decide
theorem test_measL_latches : field (·.lop) (exec .measL held) = some ⟨3#3, 0#3, 2#2⟩ := by decide
/-- VO18, and VE11 with defaults. -/
theorem test_pstart_refused :
    field shown (exec (.pstart 1 .medium) (periodic .uninitialized)) = some (0x02#8, 5#8, 0#8, 0#16, 0#32) ∧
    field shown (exec (.pstart 0 .high) held) = some (0x0E#8, 5#8, 1#8, 0x0986#16, 0x12345678#32) := by decide
/-- VO17's start, and VE13's refusal. -/
theorem test_pstart_starts :
    field shown (exec (.pstart 1 .medium) (periodic .idle)) = some (0x01#8, 0#8, 1#8, 0#16, 0#32) ∧
    field shown (exec (.pstart 5 .high) (periodic .idle)) = some (0x02#8, 5#8, 1#8, 0#16, 0#32) := by decide
/-- P5: the write of 0x63, and VO14. -/
theorem test_illegal_word :
    field shown (exec (.illegal 0x63#8) held) = some (0x0E#8, 5#8, 1#8, 0x0986#16, 0x12345678#32) ∧
    field shown (exec (.illegal 0x63#8) State.reset) = some (0x02#8, 5#8, 0#8, 0#16, 0#32) := by decide
/-- P5: `WAIT` returns at the first poll; R106: it polls again otherwise. -/
theorem test_wait_polls_status :
    field (·.reads) (exec .wait held) = some [(1, .b8 0x0E#8)] ∧ field (·.inputs) (exec .wait State.reset) = some [.seq, .wait] := by decide

/-- What 2.2 shows of a transaction: the trace and the result. -/
def bus (s : State) : List BusSym × SubResult := (s.trace, s.ret)

/-- VB1. -/
theorem test_write_acknowledged :
    field bus (exec (.write 0x44#7 [0x2C#8, 0x06#8]) (peer [.ack, .ack, .ack] [])) =
      some ([.start, .sent 0x88#8 .ack, .sent 0x2C#8 .ack, .sent 0x06#8 .ack, .stop], .ok) := by decide
/-- VB4 and VB6. -/
theorem test_write_fails :
    field bus (exec (.write 0x44#7 [0x2C#8, 0x06#8]) (peer [.ack, .ack, .nack] [])) =
      some ([.start, .sent 0x88#8 .ack, .sent 0x2C#8 .ack, .sent 0x06#8 .nack, .stop], .busError) ∧
    field bus (exec (.write 0x44#7 [0x30#8, 0xA2#8]) (peer [.ack, .timeout] [])) =
      some ([.start, .sent 0x88#8 .ack, .sent 0x30#8 .timeout, .abort], .busError) := by decide
/-- VB8. -/
theorem test_read_four :
    field (fun s => (bus s, s.rxbuf.b0, s.rxbuf.b3)) (exec (.read 0x44#7 4) (peer [.ack] [0x12#8, 0x34#8, 0x56#8, 0x78#8])) =
      some (([.start, .sent 0x89#8 .ack, .receivedAck 0x12#8, .receivedAck 0x34#8, .receivedAck 0x56#8, .receivedNack 0x78#8, .stop], .ok),
        0x12#8, 0x78#8) := by decide
/-- VB9 and VB13. -/
theorem test_read_fails :
    field bus (exec (.read 0x44#7 6) (peer [.nack] [])) = some ([.start, .sent 0x89#8 .nack, .stop], .busError) ∧
    field bus (exec (.read 0x44#7 4) { peer [.ack] [] with bytes := [.byte 0x12#8, .byte 0x34#8, .byte 0x56#8, .timeout] }) =
      some ([.start, .sent 0x89#8 .ack, .receivedAck 0x12#8, .receivedAck 0x34#8, .receivedAck 0x56#8, .receiveTimeout, .abort], .busError) := by
  decide
/-- VE20: the address byte of a WRITE, answered in time, and with `TMO` run out (R136). -/
theorem test_address_byte_of_a_write :
    field (fun s => (s.trace, s.pos)) (exec (.addrbW 0x44#7) { peer [.ack] [] with tmo := 1000 }) = some ([.sent 0x88#8 .ack], .payload 0) ∧
    field (·.trace) (exec (.addrbW 0x44#7) (peer [.ack] [])) = some [.sent 0x88#8 .timeout] := by decide
/-- VE21. -/
theorem test_address_byte_of_a_read :
    field (fun s => (s.trace, s.pos)) (exec (.addrbR 0x44#7) { peer [.nack] [] with tmo := 1 }) = some ([.sent 0x89#8 .nack], .failing .nack) := by
  decide
/-- VC1. -/
theorem test_send_command :
    field (fun s => (bus s, s.txbuf)) (exec (.sendCmd .readSerial) (peer [.ack, .ack, .ack] [])) =
      some (([.start, .sent 0x88#8 .ack, .sent 0x37#8 .ack, .sent 0x80#8 .ack, .stop], .ok), ⟨0x37#8, 0x80#8⟩) := by decide
/-- VC5. -/
theorem test_send_command_fails :
    field bus (exec (.sendCmd .softReset) (peer [.nack] [])) = some ([.start, .sent 0x88#8 .nack, .stop], .busError) := by decide
/-- VC4's reply. -/
theorem test_read_reply :
    field (fun s => (s.ret, s.rxbuf)) (exec (.readReply 6) (peer [.ack] [0x65#8, 0x7E#8, 0x44#8, 0x81#8, 0x20#8, 0xD0#8])) =
      some (.ok, ⟨0x65#8, 0x7E#8, 0x44#8, 0x81#8, 0x20#8, 0xD0#8⟩) := by decide
/-- R162: DELAY(50). -/
theorem test_delay : field (fun s => (s.phase, s.dly)) (exec (.delay 50) State.reset) = some (.settle, 50) := by decide

/-- The payload of a command row's transaction, all acknowledged. -/
def payload (i : Instr) : Option (List BusSym) := field (fun s => (s.trace.drop 2).take 2) (exec i (peer [.ack, .ack, .ack] []))

/-- 30_encoding.md R98, VE23 to VE25, VC2, VC3. -/
theorem test_command_rows_single_shot :
    [Instr.cmdSoftReset, .cmdReadSerial, .cmdSsStretchH, .cmdSsStretchM, .cmdSsStretchL, .cmdSsNostretchH, .cmdSsNostretchM, .cmdSsNostretchL,
      .cmdFetch].map payload =
    [(0x30#8, 0xA2#8), (0x37#8, 0x80#8), (0x2C#8, 0x06#8), (0x2C#8, 0x0D#8), (0x2C#8, 0x10#8), (0x24#8, 0x00#8), (0x24#8, 0x0B#8), (0x24#8, 0x16#8),
      (0xE0#8, 0x00#8)].map (fun p => some [.sent p.1 .ack, .sent p.2 .ack]) := by decide
/-- 30_encoding.md R98, VE26, VO17. -/
theorem test_command_rows_periodic_low_rates :
    [Instr.cmdPeriodicH0, .cmdPeriodicM0, .cmdPeriodicL0, .cmdPeriodicH1, .cmdPeriodicM1, .cmdPeriodicL1, .cmdPeriodicH2, .cmdPeriodicM2].map payload =
    [(0x20#8, 0x32#8), (0x20#8, 0x24#8), (0x20#8, 0x2F#8), (0x21#8, 0x30#8), (0x21#8, 0x26#8), (0x21#8, 0x2D#8), (0x22#8, 0x36#8),
      (0x22#8, 0x20#8)].map (fun p => some [.sent p.1 .ack, .sent p.2 .ack]) := by decide
theorem test_command_rows_periodic_high_rates :
    [Instr.cmdPeriodicL2, .cmdPeriodicH3, .cmdPeriodicM3, .cmdPeriodicL3, .cmdPeriodicH4, .cmdPeriodicM4, .cmdPeriodicL4].map payload =
    [(0x22#8, 0x2B#8), (0x23#8, 0x34#8), (0x23#8, 0x22#8), (0x23#8, 0x29#8), (0x27#8, 0x37#8), (0x27#8, 0x21#8),
      (0x27#8, 0x2A#8)].map (fun p => some [.sent p.1 .ack, .sent p.2 .ack]) := by decide

/-- VK1, VK2, and the seed of 2.4's last paragraph. -/
theorem test_crc8 :
    field (·.ret) (exec (.crc8 0xBE#8 0xEF#8 0xFF#8) State.reset) = some (.u8 0x92#8) ∧
    field (·.ret) (exec (.crc8 0xBE#8 0xEF#8 0x00#8) State.reset) = some (.u8 0x13#8) := by decide +kernel
/-- VK5, VK28. -/
theorem test_check_group :
    field (·.ret) (exec (.checkGroup 0x81#8 0x20#8 0xD0#8) State.reset) = some (.bool true) ∧
    field (·.ret) (exec (.checkGroup 0x64#8 0x7E#8 0x44#8) State.reset) = some (.bool false) := by decide +kernel
/-- VK46 (a frame that a later test rejects passes here). -/
theorem test_check_frame_passes :
    field (fun s => (s.ret, s.done)) (exec .checkFrame (frame 0xFF#8 0xFF#8 0xAC#8 0xFF#8 0xFF#8 0xAC#8)) = some (.ok, false) := by decide +kernel
/-- VK41: the second checksum is wrong by one bit. -/
theorem test_check_frame_raises :
    field shown (exec .checkFrame (frame 0x65#8 0x7E#8 0x44#8 0x81#8 0x20#8 0xD1#8)) = some (0x02#8, 2#8, 0#8, 0#16, 0#32) := by decide +kernel
/-- VD8, VD3. -/
theorem test_conv_t :
    field (·.ret) (exec (.convT 0x657E#16) State.reset) = some (.s16 0x0986#16) ∧
    field (·.ret) (exec (.convT 0x2492#16) State.reset) = some (.s16 0xF830#16) := by decide +kernel
/-- VD12, VD17. -/
theorem test_conv_rh :
    field (·.ret) (exec (.convRh 0x8120#16) State.reset) = some (.u16 0x13B4#16) ∧
    field (·.ret) (exec (.convRh 0xFFFF#16) State.reset) = some (.u16 0x2710#16) := by decide
/-- VD3, VD4, VD14, VD15. -/
theorem test_t_ok :
    [0x2492#16, 0x2493#16, 0xF8AE#16, 0xF8AF#16].map (fun r => field (·.ret) (exec (.tOk r) State.reset)) =
      [some (.bool false), some (.bool true), some (.bool true), some (.bool false)] := by decide
/-- VD17: accepted at the bound. -/
theorem test_h_ok : field (·.ret) (exec (.hOk 0xFFFF#16) State.reset) = some (.bool true) := by decide
/-- VD20, VD22. -/
theorem test_decode_meas :
    field (·.ret) (exec .decodeMeas (frame 0x65#8 0x7E#8 0x44#8 0x81#8 0x20#8 0xD0#8)) = some (.meas 0x0986#16 0x13B4#16 0x657E#16 0x8120#16) ∧
    field (·.ret) (exec .decodeMeas (frame 0x24#8 0x93#8 0xB4#8 0x00#8 0x00#8 0x81#8)) = some (.meas 0xF830#16 0#16 0x2493#16 0#16) := by decide +kernel
/-- VD24 and VD25. -/
theorem test_decode_meas_raises :
    field shown (exec .decodeMeas (frame 0x24#8 0x92#8 0x85#8 0x66#8 0x66#8 0x93#8)) = some (0x02#8, 4#8, 0#8, 0#16, 0#32) ∧
    field shown (exec .decodeMeas (frame 0xF8#8 0xAF#8 0x7C#8 0x66#8 0x66#8 0x93#8)) = some (0x02#8, 4#8, 0#8, 0#16, 0#32) := by decide
/-- VD40, VD41, VD44. -/
theorem test_decode_serial_raw4 :
    field (·.ret) (exec .decodeSerialRaw4 (frame 0x12#8 0x34#8 0x37#8 0x56#8 0#8 0#8)) = some (.serial 0x12343756#32) ∧
    field shown (exec .decodeSerialRaw4 (frame 0xFF#8 0xFF#8 0xFF#8 0xFF#8 0#8 0#8)) = some (0x02#8, 3#8, 0#8, 0#16, 0#32) := by decide
/-- VD45. -/
theorem test_decode_serial_checked6 :
    field (·.ret) (exec .decodeSerialChecked6 (frame 0x12#8 0x34#8 0x37#8 0x56#8 0x78#8 0x7D#8)) = some (.serial 0x12345678#32) := by
  decide +kernel
/-- VD47 and VD48: the checksum outranks the sentinel. -/
theorem test_decode_serial_checked6_raises :
    field shown (exec .decodeSerialChecked6 (frame 0xFF#8 0xFF#8 0xFF#8 0xFF#8 0xFF#8 0xFF#8)) = some (0x02#8, 2#8, 0#8, 0#16, 0#32) ∧
    field shown (exec .decodeSerialChecked6 (frame 0xFF#8 0xFF#8 0xAC#8 0xFF#8 0xFF#8 0xAC#8)) = some (0x02#8, 3#8, 0#8, 0#16, 0#32) := by
  decide +kernel

/-- VO23: the block's reset in a READ records `X` and takes no `complete`. -/
theorem test_block_reset :
    field (fun s => (shown s, s.trace)) (step { held with
      busy := true, done := false, phase := .read, pos := .reading, trace := [.start], inputs := [.rst] }) =
      some ((0#8, 0#8, 0#8, 0#16, 0#32), [.start, .abort]) := by decide
/-- The host writes 0x20 as the first event after reset. -/
theorem test_fetched_operation_runs : field (fun s => (s.busy, s.phase)) (step (State.reset.withFetchWord 8 0x20)) = some (true, .cfg) := by decide
/-- VE26's word in `TXBUF`, all acknowledged. -/
theorem test_fetched_command_runs :
    field (·.trace) (step ((peer [.ack, .ack, .ack] []).withFetchWord 16 0x2721)) =
      some [.start, .sent 0x88#8 .ack, .sent 0x27#8 .ack, .sent 0x21#8 .ack, .stop] := by decide

/-! ## Witnesses: for each statement with hypotheses, a state and operands that meet them, at boundary values of each clause -/

theorem quiescent_reset : Quiescent State.reset := ⟨rfl, rfl, rfl, rfl, rfl, rfl, rfl, rfl⟩
theorem quiescent_peer (acks : List Ack) (vs : List Byte) : Quiescent (peer acks vs) := ⟨rfl, rfl, rfl, rfl, rfl, rfl, rfl, rfl⟩
theorem quiescent_periodic (m : Mode) : Quiescent (periodic m) := ⟨rfl, rfl, rfl, rfl, rfl, rfl, rfl, rfl⟩

theorem witness_DecodeAfterEncodeIsIdentity :
    ((Instr.illegal 0xFF#8).wf = true ∧ (Instr.illegal 0xFF#8).format ≠ .none) ∧
    ((Instr.addrbW 0x7F#7).wf = true ∧ (Instr.addrbW 0x7F#7).format ≠ .none) ∧
    ((Instr.pstart 7#3 .low).wf = true ∧ (Instr.pstart 7#3 .low).format ≠ .none) := by decide

/-- The boundary words of 30_encoding.md R95: 0x62 and 0x63, 0x80, 0x92 and 0x94. -/
theorem witness_OperationWordStartsOrIsRefused :
    Quiescent State.reset ∧ Quiescent (periodic .idle) ∧ Quiescent (periodic .uninitialized) ∧
    legalWord Config.default 0x63#8 = false ∧ legalWord Config.default 0x80#8 = false ∧ legalWord Config.default 0x62#8 = true ∧
    legalWord (periodic .idle).cfg 0x80#8 = true ∧ legalWord (periodic .idle).cfg 0x92#8 = true ∧ legalWord (periodic .idle).cfg 0x94#8 = false ∧
    (periodic .idle).mode ≠ .uninitialized :=
  ⟨quiescent_reset, quiescent_periodic _, quiescent_periodic _, by decide, by decide, by decide, by decide, by decide, by decide, by decide⟩

theorem witness_StepRunsTheOperationWord :
    ({ State.reset with inputs := [.hostWrite 0 0x20#32] } : State).inputs = .hostWrite 0 0x20#32 :: [] := rfl

theorem witness_StepRunsTheCommandInTxbuf :
    let s := State.reset.withFetchWord 16 0x30A2
    s.inputs = .sub :: [] ∧ s.phase = .write ∧ s.pos = .loaded ∧ decodeCommand s.cfg (txWord s.txbuf) = some .softReset := by decide

theorem witness_FetchedTableWordRuns :
    State.reset.cfg = Config.default ∧ decodeTableWord 8 0x40 = some .rdsn ∧ decodeTableWord 8 0x45 = some (.addrbR 0x22#7) ∧
    decodeTableWord 16 0xE000 = some .cmdFetch := by decide

theorem witness_HostRegisterFile :
    let s (m : Move) : State := { State.reset with inputs := [m] }
    ((s (.hostRead 0)).inputs = .hostRead 0 :: [] ∧ (s (.hostRead 8)).inputs = .hostRead 8 :: [] ∧
      (8, HostVal.b32 0#32) ∈ [(0, HostVal.b8 0#8), (8, .b32 (s (.hostRead 8)).serial)]) ∧
    (s (.hostWrite 1 0#32)).inputs = .hostWrite 1 0#32 :: [] ∧ (s (.hostWrite 8 0#32)).inputs = .hostWrite 8 0#32 :: [] ∧
    (s (.hostRead 9)).inputs = .hostRead 9 :: [] ∧ (s (.hostWrite 9 0#32)).inputs = .hostWrite 9 0#32 :: [] ∧ 8 < 9 := by decide

theorem witness_OperationRegister :
    let s (b : Bool) (m : Move) : State := { State.reset with busy := b, inputs := [m] }
    ((s true (.hostWrite 0 0x20#32)).inputs = .hostWrite 0 0x20#32 :: [] ∧ (s true (.hostWrite 0 0x20#32)).busy = true) ∧
    field (·.busy) (step (s false (.hostWrite 0 0x62#32))) = some true ∧ (s false (.hostRead 0)).inputs = .hostRead 0 :: [] := by decide

theorem witness_WaitPolls : held.done = true ∧ State.reset.done = false := by decide

/-- For InitStarts, RdsnStarts and MeasStarts. -/
theorem witness_InitStarts_RdsnStarts_MeasStarts :
    held.busy = false ∧ (Instr.measL, 2#2) ∈ [(Instr.measH, 0#2), (.measM, 1#2), (.measL, 2#2)] := by decide

theorem witness_PstartStarts :
    Quiescent (periodic .idle) ∧ (Rep.low, 2#2) ∈ [(Rep.high, 0#2), (.medium, 1#2), (.low, 2#2)] ∧
    ((periodic .idle).cfg.hasPeriodicStart = true ∧ (4#3).toNat < (periodic .idle).cfg.nRates ∧ (periodic .idle).mode ≠ .uninitialized) ∧
    (periodic .idle).cfg.nRates ≤ (5#3).toNat ∧ State.reset.cfg.hasPeriodicStart = false ∧ (periodic .uninitialized).mode = .uninitialized :=
  ⟨quiescent_periodic _, by decide, by decide, by decide, by decide, by decide⟩

theorem witness_IllegalWordRefused : Quiescent State.reset := quiescent_reset

theorem witness_WriteAcknowledged :
    ([0x2C#8] ≠ [] ∧ (peer [.ack, .ack, .nack] []).acks = List.replicate ([0x2C#8].length + 1) .ack ++ [.nack]) ∧
    ([0x2C#8, 0x06#8].length = 2 ∧ (peer [.ack, .ack, .ack] []).acks = List.replicate ([0x2C#8, 0x06#8].length + 1) .ack ++ []) := by decide

/-- The failing answer at the address byte and at the last byte. -/
theorem witness_WriteFailsAtFirstBadAnswer :
    addrByteW 0x44#7 :: [0x2C#8, 0x06#8] = [] ++ 0x88#8 :: [0x2C#8, 0x06#8] ∧ addrByteW 0x44#7 :: [0x2C#8, 0x06#8] = [0x88#8, 0x2C#8] ++ 0x06#8 :: [] ∧
    Ack.nack ≠ .ack ∧ Ack.timeout ≠ .ack ∧ (peer [.nack] []).acks = List.replicate 0 .ack ++ .nack :: [] ∧
    (peer [.ack, .ack, .timeout] []).acks = List.replicate 2 .ack ++ .timeout :: [] := by decide

/-- One byte, four and six bytes. -/
theorem witness_ReadReceivesAllBytes :
    ((peer [.ack] [1#8]).acks = .ack :: [] ∧ (peer [.ack] [1#8]).bytes = [1#8].map .byte ++ [] ∧ 1 ≤ [1#8].length) ∧
    ((peer [.ack] [1#8, 2#8, 3#8, 4#8]).bytes = [1#8, 2#8, 3#8, 4#8].map .byte ++ [] ∧ [1#8, 2#8, 3#8, 4#8].length = 4) ∧
    ((peer [.ack] [1#8, 2#8, 3#8, 4#8, 5#8, 6#8]).bytes = [1#8, 2#8, 3#8, 4#8, 5#8, 6#8].map .byte ++ [] ∧
      [1#8, 2#8, 3#8, 4#8, 5#8, 6#8].length ≤ 6) := by decide

/-- The address not acknowledged; the first byte of one, the last of four and the last of six timing out. -/
theorem witness_ReadFails :
    let s (vs : List Byte) : State := { peer [.ack] [] with bytes := vs.map .byte ++ [.timeout] }
    (Ack.timeout ≠ .ack ∧ (peer [.timeout] []).acks = .timeout :: []) ∧
    ([] : List Byte).length < 1 ∧ (s []).acks = .ack :: [] ∧ (s []).bytes = ([] : List Byte).map .byte ++ .timeout :: [] ∧
    [1#8, 2#8, 3#8].length < 4 ∧ (s [1#8, 2#8, 3#8]).bytes = [1#8, 2#8, 3#8].map .byte ++ .timeout :: [] ∧
    [1#8, 2#8, 3#8, 4#8, 5#8].length < 6 ∧ (s [1#8, 2#8, 3#8, 4#8, 5#8]).bytes = [1#8, 2#8, 3#8, 4#8, 5#8].map .byte ++ .timeout :: [] := by decide

/-- The lengths beside 2, 4 and 6. -/
theorem witness_BadLengthsRefused :
    ([] : List Byte).length ≠ 2 ∧ [1#8].length ≠ 2 ∧ [1#8, 2#8, 3#8].length ≠ 2 ∧
    (∀ n, n ∈ [0, 3, 5, 7] → n ≠ 4 ∧ n ≠ 6) := by decide

theorem witness_AddressByteIsSent :
    (peer [.nack] []).acks = .nack :: [] ∧ ({ peer [.nack] [] with tmo := 1 } : State).tmo ≠ 0 ∧ (peer [.nack] []).tmo = 0 := by decide

theorem witness_SendCommandWritesItsWord :
    commandWord State.reset.cfg .softReset = 0x30#8 ++ 0xA2#8 ∧ (peer [.ack, .ack, .ack] []).acks = .ack :: .ack :: .ack :: [] ∧
    (peer [.nack] []).acks = .nack :: [] ∧ (peer [.ack, .timeout] []).acks = .ack :: .timeout :: [] ∧
    (peer [.ack, .ack, .nack] []).acks = .ack :: .ack :: .nack :: [] ∧ Ack.nack ≠ .ack ∧ Ack.timeout ≠ .ack := by decide

/-- The first and the last row. -/
theorem witness_CommandRowsSendTheirWords :
    (Instr.cmdSoftReset, 0x30A2#16) ∈ commandRows State.reset.cfg ∧ (Instr.cmdFetch, 0xE000#16) ∈ commandRows State.reset.cfg ∧
    (peer [.ack, .ack, .ack] []).acks = .ack :: .ack :: .ack :: [] := by decide

theorem witness_ReadReplyReadsTheBytes :
    [1#8, 2#8, 3#8, 4#8].length = 4 ∧ [1#8, 2#8, 3#8, 4#8, 5#8, 6#8].length = 6 ∧ (peer [.ack] [1#8, 2#8, 3#8, 4#8]).acks = .ack :: [] ∧
    (peer [.ack] [1#8, 2#8, 3#8, 4#8]).bytes = [1#8, 2#8, 3#8, 4#8].map .byte ++ [] ∧
    (peer [.ack] [1#8, 2#8, 3#8, 4#8, 5#8, 6#8]).bytes = [1#8, 2#8, 3#8, 4#8, 5#8, 6#8].map .byte ++ [] := by decide

theorem witness_DelayCountsTicks :
    let s (m : Move) : State := { State.reset with phase := .settle, dly := 1, inputs := [m] }
    ((s .tick).phase = .settle ∧ isOpen (s .tick).pos = false ∧ (s .tick).inputs = .tick :: []) ∧ 0 < (s .seq).dly ∧ (s .seq).inputs = .seq :: [] := by
  decide

/-- S8's group, flips of bits 0 and 7. -/
theorem witness_SingleBitFlipsAreCaught : groupOk 0x65#8 0x7E#8 0x44#8 = true ∧ 0 < 8 ∧ 7 < 8 := by decide +kernel

/-- VK40, VK41, VK43. -/
theorem witness_CheckFrameDecides :
    (frame 0x65#8 0x7E#8 0x44#8 0x81#8 0x20#8 0xD0#8).rxbuf = ⟨0x65#8, 0x7E#8, 0x44#8, 0x81#8, 0x20#8, 0xD0#8⟩ ∧
    crc8 0x65#8 0x7E#8 0xFF#8 = 0x44#8 ∧ crc8 0x81#8 0x20#8 0xFF#8 = 0xD0#8 ∧ crc8 0x65#8 0x7E#8 0xFF#8 ≠ 0x45#8 ∧
    crc8 0x81#8 0x20#8 0xFF#8 ≠ 0xD1#8 := by decide +kernel

theorem witness_AcceptedTemperatureRange : tOk 9363#16 = true ∧ tOk 63662#16 = true := by decide

/-- VD4, VD14 inside the bounds, VD3, VD15 outside. -/
theorem witness_DecodeMeasDecides :
    let inside (r : W16) := 9363 ≤ r.toNat ∧ r.toNat ≤ 63662
    ((0x2493#16).toNat = 256 * (0x24#8).toNat + (0x93#8).toNat ∧ inside 0x2493#16) ∧
    ((0xF8AE#16).toNat = 256 * (0xF8#8).toNat + (0xAE#8).toNat ∧ inside 0xF8AE#16) ∧
    ((0x2492#16).toNat = 256 * (0x24#8).toNat + (0x92#8).toNat ∧ (0x2492#16).toNat < 9363) ∧
    ((0xF8AF#16).toNat = 256 * (0xF8#8).toNat + (0xAF#8).toNat ∧ 63662 < (0xF8AF#16).toNat) := by decide

/-- VD42 and VD41. -/
theorem witness_DecodeSerialRaw4Decides :
    ((0xFFFFFFFE#32).toNat = 16777216 * (0xFF#8).toNat + 65536 * (0xFF#8).toNat + 256 * (0xFF#8).toNat + (0xFE#8).toNat ∧
      0xFFFFFFFE#32 ≠ 0xFFFFFFFF#32) ∧
    (0xFFFFFFFF#32).toNat = 16777216 * (0xFF#8).toNat + 65536 * (0xFF#8).toNat + 256 * (0xFF#8).toNat + (0xFF#8).toNat := by decide

/-- VD45, VD46 and VD48. -/
theorem witness_DecodeSerialChecked6Decides :
    ((0x12345678#32).toNat = 16777216 * (0x12#8).toNat + 65536 * (0x34#8).toNat + 256 * (0x56#8).toNat + (0x78#8).toNat ∧
      crc8 0x12#8 0x34#8 0xFF#8 = 0x37#8 ∧ crc8 0x56#8 0x78#8 0xFF#8 = 0x7D#8 ∧ 0x12345678#32 ≠ 0xFFFFFFFF#32) ∧
    crc8 0x56#8 0x78#8 0xFF#8 ≠ 0x7C#8 ∧ crc8 0xFF#8 0xFF#8 0xFF#8 = 0xAC#8 := by decide +kernel

theorem witness_InitRunsToIdle :
    let s := peer [.ack, .ack, .ack] []
    Quiescent s ∧ s.inputs = [] ∧ s.cfg.cmdSoftReset = 0x30#8 ++ 0xA2#8 ∧ s.acks = .ack :: .ack :: .ack :: [] :=
  ⟨quiescent_peer _ _, rfl, rfl, rfl⟩

/-- VO17. -/
theorem witness_PstartRunsToPeriodic :
    let s : State := { periodic .idle with acks := [.ack, .ack, .ack] }
    Quiescent s ∧ s.inputs = [] ∧ s.cfg.hasPeriodicStart = true ∧ (1#3).toNat < s.cfg.nRates ∧ s.mode ≠ .uninitialized ∧
    commandWord s.cfg (.periodic .medium 1#3) = 0x21#8 ++ 0x26#8 ∧ s.acks = .ack :: .ack :: .ack :: [] :=
  ⟨⟨rfl, rfl, rfl, rfl, rfl, rfl, rfl, rfl⟩, rfl, rfl, by decide, by decide, rfl, rfl⟩

/-- The step clause, with and without a pending move; VO2 (the first answer) and VO19 (the last, of a PSTART). -/
theorem witness_CommandFailureEndsOperation :
    (let s (l : List Move) : State := { State.reset with busy := true, phase := .write, ret := .busError, inputs := l }
     (s []).inputs = [] ∧ (s [.seq]).inputs = .seq :: [] ∧ (s []).phase = .write ∧ (s []).pos = .closed ∧ (s []).ret = .busError) ∧
    (Quiescent (peer [.nack] []) ∧ (peer [.nack] []).inputs = [] ∧
      addrByteW State.reset.cfg.devAddr :: commandBytes State.reset.cfg (commandOf .init) = [] ++ 0x88#8 :: [0x30#8, 0xA2#8] ∧
      (peer [.nack] []).acks = List.replicate 0 .ack ++ .nack :: [] ∧
      (Instr.init, HostOp.init) ∈ [(Instr.init, HostOp.init), (.rdsn, .rdsn), (.measH, .meas .high), (.measM, .meas .medium), (.measL, .meas .low)]) ∧
    (Quiescent (periodic .idle) ∧ admitted (.pstart 1#3 .medium) (periodic .idle) = true ∧
      addrByteW (periodic .idle).cfg.devAddr :: commandBytes (periodic .idle).cfg (commandOf (.pstart 1#3 .medium)) =
        [0x88#8, 0x21#8] ++ 0x26#8 :: [] ∧
      ({ periodic .idle with acks := [.ack, .ack, .nack] } : State).acks = List.replicate 2 .ack ++ .nack :: []) :=
  ⟨⟨rfl, rfl, rfl, rfl, rfl⟩, ⟨quiescent_peer _ _, rfl, rfl, rfl, by decide⟩, quiescent_periodic _, by decide, rfl, rfl⟩

/-- VO8; the clauses on the checksums and the bounds are those of witness_CheckFrameDecides and witness_DecodeMeasDecides. -/
theorem witness_MeasRunsToItsResult :
    let s := peer [.ack, .ack, .ack, .ack] [0x65#8, 0x7E#8, 0x44#8, 0x81#8, 0x20#8, 0xD0#8]
    (Instr.measH, Rep.high) ∈ [(Instr.measH, Rep.high), (.measM, .medium), (.measL, .low)] ∧ Quiescent s ∧ s.inputs = [] ∧
    s.acks = .ack :: .ack :: .ack :: .ack :: [] ∧ s.bytes = [0x65#8, 0x7E#8, 0x44#8, 0x81#8, 0x20#8, 0xD0#8].map .byte ++ [] ∧
    (0x657E#16).toNat = 256 * (0x65#8).toNat + (0x7E#8).toNat ∧ (0x8120#16).toNat = 256 * (0x81#8).toNat + (0x20#8).toNat ∧
    crc8 0x65#8 0x7E#8 0xFF#8 = 0x44#8 ∧ crc8 0x81#8 0x20#8 0xFF#8 = 0xD0#8 ∧ 9363 ≤ (0x657E#16).toNat ∧ (0x657E#16).toNat ≤ 63662 :=
  ⟨by decide, quiescent_peer _ _, rfl, rfl, rfl, rfl, rfl, by decide +kernel, by decide +kernel, by decide, by decide⟩

/-- VO4; VO5 for the sentinel. -/
theorem witness_RdsnRaw4RunsToItsResult :
    let s := peer [.ack, .ack, .ack, .ack] [0x12#8, 0x34#8, 0x56#8, 0x78#8]
    s.cfg.serialMode = .raw4 ∧ Quiescent s ∧ s.inputs = [] ∧ s.acks = .ack :: .ack :: .ack :: .ack :: [] ∧
    s.bytes = [0x12#8, 0x34#8, 0x56#8, 0x78#8].map .byte ++ [] ∧
    (0x12345678#32).toNat = 16777216 * (0x12#8).toNat + 65536 * (0x34#8).toNat + 256 * (0x56#8).toNat + (0x78#8).toNat ∧
    (0xFFFFFFFF#32).toNat = 16777216 * (0xFF#8).toNat + 65536 * (0xFF#8).toNat + 256 * (0xFF#8).toNat + (0xFF#8).toNat :=
  ⟨rfl, quiescent_peer _ _, rfl, rfl, rfl, rfl, rfl⟩

/-- VO22; the clauses on the checksums and the sentinel are those of witness_DecodeSerialChecked6Decides. -/
theorem witness_RdsnChecked6RunsToItsResult :
    let s : State := { peer [.ack, .ack, .ack, .ack] [0x12#8, 0x34#8, 0x37#8, 0x56#8, 0x78#8, 0x7D#8] with
      cfg := { Config.default with serialMode := .checked6 } }
    s.cfg.serialMode = .checked6 ∧ Quiescent s ∧ s.inputs = [] ∧ s.acks = .ack :: .ack :: .ack :: .ack :: [] ∧
    s.bytes = [0x12#8, 0x34#8, 0x37#8, 0x56#8, 0x78#8, 0x7D#8].map .byte ++ [] ∧
    (0x12345678#32).toNat = 16777216 * (0x12#8).toNat + 65536 * (0x34#8).toNat + 256 * (0x56#8).toNat + (0x78#8).toNat :=
  ⟨rfl, ⟨rfl, rfl, rfl, rfl, rfl, rfl, rfl, rfl⟩, rfl, rfl, rfl, rfl⟩

/-- VO6 (the address not acknowledged, no byte scripted) and VO12 (two bytes, then a timeout); the last byte of six timing out. -/
theorem witness_ReplyFailureEndsOperation :
    let s (bytes : List PeerByte) : State := { peer [.ack, .ack, .ack, .ack] [] with bytes := bytes }
    let five := [1#8, 2#8, 3#8, 4#8, 5#8]
    ((Instr.rdsn, HostOp.rdsn) ∈ [(Instr.rdsn, HostOp.rdsn), (.measH, .meas .high), (.measM, .meas .medium), (.measL, .meas .low)] ∧
      replyLength (peer [.ack, .ack, .ack, .nack] []).cfg .rdsn = some 4 ∧ Quiescent (peer [.ack, .ack, .ack, .nack] []) ∧
      (peer [.ack, .ack, .ack, .nack] []).inputs = [] ∧ Ack.nack ≠ .ack ∧
      (peer [.ack, .ack, .ack, .nack] []).acks = .ack :: .ack :: .ack :: .nack :: []) ∧
    ((Instr.measH, HostOp.meas .high) ∈ [(Instr.rdsn, HostOp.rdsn), (.measH, .meas .high), (.measM, .meas .medium), (.measL, .meas .low)] ∧
      (∀ bytes, replyLength (s bytes).cfg (.meas .high) = some 6 ∧ Quiescent (s bytes) ∧ (s bytes).inputs = [] ∧
        (s bytes).acks = .ack :: .ack :: .ack :: .ack :: []) ∧
      [0x65#8, 0x7E#8].length < 6 ∧ (s [.byte 0x65#8, .byte 0x7E#8, .timeout]).bytes = [0x65#8, 0x7E#8].map .byte ++ .timeout :: [] ∧
      five.length < 6 ∧ (s (five.map .byte ++ [.timeout])).bytes = five.map .byte ++ .timeout :: []) :=
  ⟨⟨by decide, rfl, quiescent_peer _ _, rfl, by decide, rfl⟩, by decide,
    fun _ => ⟨rfl, ⟨rfl, rfl, rfl, rfl, rfl, rfl, rfl, rfl⟩, rfl, rfl⟩, by decide, rfl, by decide, rfl⟩

/-- An operation that runs in `P_SETTLE`. -/
def settling (op : HostOp) (dly : Nat) (inputs : List Move) : State :=
  { State.reset with busy := true, phase := .settle, lop := latchOf op, dly := dly, inputs := inputs }

theorem settling_inv (dly : Nat) (inputs : List Move) : Inv (settling .init dly inputs) ∧ Inv (settling (.meas .high) dly inputs) := by
  constructor <;> constructor <;>
    simp [settling, State.reset, isOpen, onPath, ownCleared, trackTrace, trackOf, latched, latchOf, repOfCode, repCode]

/-- An operation that runs in `P_DECODE`. -/
def decoding (op : HostOp) (r : RxBuf) : State := { State.reset with busy := true, phase := .decode, lop := latchOf op, rxbuf := r }

theorem decoding_inv (r : RxBuf) : Inv (decoding .rdsn r) := by
  constructor <;>
    simp [decoding, State.reset, isOpen, onPath, ownCleared, replyLength, trackTrace, trackOf, latched, latchOf]

/-- VO4 and VO5: the check, the composition and `complete` are one step (10_state.md R37, R40). -/
theorem test_decode_phase_of_rdsn :
    [(⟨0x12#8, 0x34#8, 0x56#8, 0x78#8, 0#8, 0#8⟩ : RxBuf), ⟨0xFF#8, 0xFF#8, 0xFF#8, 0xFF#8, 0#8, 0#8⟩].map
      (fun r => field shown (step (decoding .rdsn r))) =
    [some (0x0A#8, 0#8, 0#8, 0#16, 0x12345678#32), some (0x02#8, 3#8, 0#8, 0#16, 0#32)] := by decide

/-- VO8, VO10 and VO11's replies: the result, the bounds, and the checksum tested before the bounds. -/
theorem test_decode_phase_of_meas :
    [(⟨0x65#8, 0x7E#8, 0x44#8, 0x81#8, 0x20#8, 0xD0#8⟩ : RxBuf), ⟨0xFF#8, 0xFF#8, 0xAC#8, 0x66#8, 0x66#8, 0x93#8⟩,
      ⟨0xFF#8, 0xFF#8, 0xAC#8, 0x66#8, 0x66#8, 0x92#8⟩].map (fun r => field shown (step (decoding (.meas .high) r))) =
    [some (0x06#8, 0#8, 0#8, 0x0986#16, 0#32), some (0x02#8, 4#8, 0#8, 0#16, 0#32), some (0x02#8, 2#8, 0#8, 0#16, 0#32)] := by
  decide +kernel

/-- For StepKeepsInvariant, EveryRunIsSafe, OnlyBadRegistersAreRefused, EveryOperationCompletes, HostSeesNothingWhileBusy: a running operation, with
and without another agent's move pending. -/
theorem witness_running :
    Inv (settling (.meas .high) 1 []) ∧ field (·.busy) (step (settling (.meas .high) 1 [])) = some true ∧
    (settling (.meas .high) 1 []).busy = true ∧ (settling (.meas .high) 1 []).inputs = [] ∧
    Inv (settling (.meas .high) 1 [.hostRead 9]) ∧ step (settling (.meas .high) 1 [.hostRead 9]) = .refused (.noSuchRegister 9) :=
  ⟨(settling_inv _ _).2, rfl, rfl, rfl, (settling_inv _ _).2, rfl⟩

theorem witness_SymbolStepsRefineSubOperations :
    Inv (settling (.meas .high) 0 []) ∧ (settling (.meas .high) 0 []).inputs = [] ∧ field (·.phase) (subStep (settling (.meas .high) 0 [])) = some .read :=
  ⟨(settling_inv _ _).2, rfl, rfl⟩

theorem witness_EveryEndIsComplete :
    let s := decoding .rdsn ⟨0x12#8, 0x34#8, 0x56#8, 0x78#8, 0#8, 0#8⟩
    Inv s ∧ s.busy = true ∧ latched s.lop = some .rdsn ∧ s.inputs.head? ≠ some .rst ∧ field (·.busy) (step s) = some false :=
  ⟨decoding_inv _, rfl, rfl, by decide, rfl⟩

/-- INIT's end, from `P_SETTLE`. -/
theorem witness_ModeChanges :
    let s := settling .init 0 []
    Inv s ∧ field (·.mode) (step s) = some .idle ∧ Mode.idle ≠ s.mode := ⟨(settling_inv _ _).1, rfl, by decide⟩

theorem witness_SettleDelayIsNotShortened :
    let s := settling (.meas .high) 1 [.tick]
    Inv s ∧ s.phase = .settle ∧ 0 < s.dly ∧ field (·.dly) (step s) = some 0 ∧ s.inputs.head? ≠ some .rst :=
  ⟨(settling_inv _ _).2, rfl, by decide, rfl, by decide⟩

theorem witness_TraceOnlyGrows : field (·.trace) (step State.reset) = some [] := by decide

theorem witness_ResetAbandonsTheOperation : (settling .init 1 [.rst]).inputs = .rst :: [] := rfl

/-- `TMO` at 1 before a tick; at 0 before each payload byte of a WRITE and before the last byte of a READ. -/
theorem witness_TransactionTimesOut :
    let w (m : Move) (i t : Nat) : State := { State.reset with phase := .write, pos := .payload i, tmo := t, inputs := [m] }
    let r : State := { State.reset with phase := .read, pos := .reading, len := 6, idx := 5, inputs := [.seq] }
    ((w .tick 1 1).inputs = .tick :: [] ∧ isOpen (w .tick 1 1).pos = true ∧ (w .tick 1 1).phase ≠ .settle) ∧
    ((w .seq 0 0).inputs = .seq :: [] ∧ (w .seq 0 0).tmo = 0 ∧ (w .seq 0 0).phase = .write ∧ (w .seq 0 0).pos = .payload 0) ∧
    ((w .seq 1 0).tmo = 0 ∧ (w .seq 1 0).pos = .payload 1) ∧
    (r.inputs = .seq :: [] ∧ r.tmo = 0 ∧ r.phase = .read ∧ r.pos = .reading ∧ r.idx < r.len) := by decide

/-- The state after an operation's acknowledged WRITE, with another move pending or none. -/
def written (op : HostOp) (inputs : List Move) : State :=
  { State.reset with busy := true, phase := .write, lop := latchOf op, ret := .ok, inputs := inputs }

/-- One state for each command, and one with `DLY` run out. -/
theorem witness_SettleDelayFollowsItsCommand :
    ((written .rdsn []).inputs = [] ∧ latched (written .rdsn []).lop = some .rdsn ∧ (written .rdsn []).phase = .write ∧
      (written .rdsn []).pos = .closed ∧ (written .rdsn []).ret = .ok) ∧
    ((written (.meas .low) [.seq]).inputs = .seq :: [] ∧ latched (written (.meas .low) [.seq]).lop = some (.meas .low)) ∧
    (latched (written .init []).lop = some .init ∧ (written .init []).cfg.tSettleResetMs = 0) ∧
    latched (written (.pstart 4#3 .low) []).lop = some (.pstart 4#3 .low) ∧
    (({ written .init [] with cfg := { Config.default with tSettleResetMs := 1 } } : State).cfg.tSettleResetMs ≠ 0) ∧
    ((settling .rdsn 0 []).phase = .settle ∧ (settling .rdsn 0 []).dly = 0 ∧ latched (settling .init 0 []).lop = some .init) := by decide

/-- 41_command_protocol.md R165: 500 ticks after the serial-number command, 50 after a measurement command. -/
theorem test_settle_delays :
    field (fun s => (s.phase, s.dly)) (step (written .rdsn [])) = some (.settle, 500) ∧
    field (fun s => (s.phase, s.dly)) (step (written (.meas .low) [])) = some (.settle, 50) ∧
    field (fun s => (s.phase, s.mode)) (step (written .init [])) = some (.idle, .idle) := by decide

end Sys2Proof.Tests
end

section
/-! PROOFS. 41_command_protocol.md: the READ transaction on a script that supplies every byte, and READ_REPLY, which is that transaction from
`DEV_ADDR`. -/

namespace Sys2Proof.Machine

/-- The address acknowledged: the READ goes on to its bytes (40_bus_transport.md R134). -/
theorem readTransaction_acked {s : State} {addr : Addr7} {len : Nat} (h : ackAnswer (readStart len s) = .ack) :
    readTransaction addr len s = receiveAll len (sendByte (addrByteR addr) (readStart len s)) := by
  rw [readTransaction, h]

/-- The address acknowledged and every byte supplied: the whole READ, its bytes stored from `RXBUF[0]` on (40_bus_transport.md R134). -/
theorem readTransaction_bytes (s : State) (addr : Addr7) {vs : List Byte} {ackRest : List Ack} {byteRest : List PeerByte}
    (hacks : s.acks = .ack :: ackRest) (hbytes : s.bytes = vs.map .byte ++ byteRest) :
    readTransaction addr vs.length s = { s with
      trace := s.trace ++ .start :: .sent (addrByteR addr) .ack :: receivedSymbols vs ++ [.stop],
      acks := ackRest, bytes := byteRest, ret := .ok, rxbuf := storeAll vs 0 s.rxbuf, len := vs.length, idx := vs.length,
      tmo := Config.busTimeoutMs, sclOut := .released, sdaOut := .released, pos := .closed, fresh := s.fresh + 5 + 3 * vs.length } := by
  have htmo : (readStart vs.length s).tmo ≠ 0 := by simp [Config.busTimeoutMs]
  have hans : ackAnswer (readStart vs.length s) = .ack := ackAnswer_of_script htmo (by simpa using hacks)
  rw [readTransaction_acked hans, receiveAll_bytes vs _ byteRest (by simpa using htmo) (by simp) (by simpa using hbytes)]
  simp [sendByte, readStart, busStart, drive, emit, ackTaken, Config.busTimeoutMs, hacks, ackAnswer]

/-- After `storeAll` from index 0, `RXBUF[i]` is byte `i` of the list. -/
theorem rxGet_storeAll_zero {vs : List Byte} (r : RxBuf) (h : vs.length ≤ 6) {i : Nat} (hi : i < vs.length) :
    rxGet (storeAll vs 0 r) i = vs[i]? := by
  simp [rxGet_storeAll vs 0 r (by omega), hi]

/-- READ_REPLY is one READ from `DEV_ADDR`, entered in `P_READ`, whatever the length (41_command_protocol.md R161). -/
theorem exec_readReply_eq_exec_read (s : State) (n : Nat) :
    exec (.readReply n) s = exec (.read s.cfg.devAddr n) { s with phase := .read } := rfl

/-- READ of 4 or 6 bytes runs the transaction (20_memory.md R64, 92_eei_decisions.md D32). -/
theorem exec_read_of_length (s : State) (addr : Addr7) {n : Nat} (h : n = 4 ∨ n = 6) :
    exec (.read addr n) s = .next (readTransaction addr n s) := if_pos h

/-- Settles O25: READ_REPLY is READ from `DEV_ADDR` in `P_READ`, and a READ whose bytes all arrive stores them in order. -/
theorem readReplyReadsTheBytes : Obligations.ReadReplyReadsTheBytes := by
  unfold Obligations.ReadReplyReadsTheBytes
  constructor
  · intro s n _
    exact exec_readReply_eq_exec_read s n
  · intro s vs ackRest byteRest hlen hacks hbytes
    have hrun := (exec_readReply_eq_exec_read s vs.length).trans (exec_read_of_length _ _ hlen)
    rw [readTransaction_bytes { s with phase := .read } s.cfg.devAddr hacks hbytes] at hrun
    exact ⟨_, hrun, fun i hi => rxGet_storeAll_zero s.rxbuf (by omega) hi, rfl⟩

end Sys2Proof.Machine
end

section
/-! PROOFS. 42_checksum.md: what CHECK_GROUP and CHECK_FRAME decide, and what the abort that a frame's failure raises leaves. -/

namespace Sys2Proof.Machine

/-- A group passes exactly if the CRC of its data bytes with seed 0xFF is its checksum byte (42_checksum.md R181, R182). -/
theorem groupOk_eq_decide (d0 d1 c : Byte) : groupOk d0 d1 c = decide (crc8 d0 d1 0xFF#8 = c) := rfl

/-- A frame passes exactly if both its groups do (42_checksum.md R183). -/
theorem frameOk_iff (b0 b1 b2 b3 b4 b5 : Byte) :
    frameOk ⟨b0, b1, b2, b3, b4, b5⟩ = true ↔ crc8 b0 b1 0xFF#8 = b2 ∧ crc8 b3 b4 0xFF#8 = b5 := by
  simp [frameOk, groupOk_eq_decide]

/-- A frame that does not pass raises `ChecksumMismatch` (42_checksum.md R183). -/
theorem frameError_of_not_ok {r : RxBuf} (h : ¬ frameOk r = true) : frameError r = some .checksumMismatch := if_neg h

/-- CHECK_FRAME goes on to return `OK` unless the frame raises an error (42_checksum.md R183). -/
theorem exec_checkFrame (s : State) : exec .checkFrame s = .next (unlessError (frameError s.rxbuf) (returning .ok) s) := rfl

/-- CHECK_FRAME on a frame that passes returns `OK` and leaves the rest of the state. -/
theorem exec_checkFrame_of_ok {s : State} (h : frameOk s.rxbuf = true) : exec .checkFrame s = .next { s with ret := .ok } := by
  rw [exec_checkFrame, frameError_none.2 h, unlessError_none, returning]

/-- CHECK_FRAME on a frame that fails is the abort with `ChecksumMismatch`, whichever group failed. -/
theorem exec_checkFrame_of_not_ok {s : State} (h : ¬ frameOk s.rxbuf = true) :
    exec .checkFrame s = .next (abort .checksumMismatch s) := by
  rw [exec_checkFrame, frameError_of_not_ok h, unlessError_some]

/-- The abort leaves what 60_exceptions.md R266 says, no result register written. -/
theorem aborted_abort (code : ErrCode) (s : State) : aborted code s (abort code s) := rfl

/-- CHECK_GROUP returns whether the group passes and leaves the rest of the state (42_checksum.md R182). -/
theorem exec_checkGroup (d0 d1 c : Byte) (s : State) : exec (.checkGroup d0 d1 c) s = .next { s with ret := .bool (groupOk d0 d1 c) } := rfl

/-- Settles O29: CHECK_GROUP returns the comparison of the CRC, seed 0xFF, with the checksum byte; the examples of R182 by evaluation. -/
theorem checkGroupCompares : Obligations.CheckGroupCompares := by
  unfold Obligations.CheckGroupCompares
  refine ⟨fun s d0 d1 c => ?_, by decide +kernel, by decide +kernel, by decide +kernel⟩
  rw [exec_checkGroup, groupOk_eq_decide]

/-- Settles O30: CHECK_FRAME passes a frame both of whose groups pass and aborts on any other; the corner cases of R183 by evaluation. -/
theorem checkFrameDecides : Obligations.CheckFrameDecides := by
  unfold Obligations.CheckFrameDecides
  refine ⟨by decide +kernel, by decide +kernel, by decide +kernel, by decide +kernel, fun s b0 b1 b2 b3 b4 b5 hrx => ?_⟩
  have hok : frameOk s.rxbuf = true ↔ crc8 b0 b1 0xFF#8 = b2 ∧ crc8 b3 b4 0xFF#8 = b5 := hrx ▸ frameOk_iff b0 b1 b2 b3 b4 b5
  constructor
  · intro h0 h1
    exact exec_checkFrame_of_ok (hok.2 ⟨h0, h1⟩)
  · intro hfail
    have hbad : ¬ frameOk s.rxbuf = true := fun h => not_and_or.2 hfail (hok.1 h)
    exact ⟨_, exec_checkFrame_of_not_ok hbad, aborted_abort .checksumMismatch s⟩

end Sys2Proof.Machine
end

section
/-! PROOFS. 43_decoder.md: the two conversions, rounded to the nearest hundredth, and what the decoding of a frame returns or raises. -/

namespace Sys2Proof.Machine

/-! ## The conversions -/

/-- `T_centi` in integers: the formula of 43_decoder.md R204. -/
theorem tCenti_eq (rawT : W16) : tCenti rawT = (17500 * (rawT.toNat : Int) + 32767) / 65535 - 4500 := by
  simp [tCenti]

/-- Adding 32767 before the division by 65535 rounds to the nearest: 65535 is odd, so no remainder is a tie (43_decoder.md R204, R205). -/
theorem roundedQuotient_nearest (n : Int) :
    2 * (65535 * ((n + 32767) / 65535) - n) < 65535 ∧ -65535 < 2 * (65535 * ((n + 32767) / 65535) - n) := by
  omega

/-- `T_centi` is nearer than a half to 100 times the exact temperature, over the common denominator (43_decoder.md R204). -/
theorem tCenti_nearest (rawT : W16) :
    2 * (65535 * (tCenti rawT + 4500) - 17500 * (rawT.toNat : Int)) < 65535 ∧
    -65535 < 2 * (65535 * (tCenti rawT + 4500) - 17500 * (rawT.toNat : Int)) := by
  rw [tCenti_eq, Int.sub_add_cancel]
  exact roundedQuotient_nearest _

theorem tCenti_mono {a b : W16} (h : a.toNat ≤ b.toNat) : tCenti a ≤ tCenti b := by
  rw [tCenti_eq, tCenti_eq]
  omega

/-- The range of `T_centi` over every raw word (43_decoder.md R204). -/
theorem tCenti_range (rawT : W16) : -4500 ≤ tCenti rawT ∧ tCenti rawT ≤ 13000 := by
  have hlt : rawT.toNat < 65536 := rawT.isLt
  rw [tCenti_eq]
  omega

/-- The s16 that is stored is `T_centi` itself: its range fits (43_decoder.md R204, 30_encoding.md R103). -/
theorem tWord_toInt (rawT : W16) : (tWord rawT).toInt = tCenti rawT := by
  obtain ⟨hlo, hhi⟩ := tCenti_range rawT
  exact BitVec.toInt_ofInt_eq_self (by decide) (by omega) (by omega)

/-- `H_centi` is nearer than a half to 100 times the exact humidity, over the common denominator (43_decoder.md R205). -/
theorem hCenti_nearest (rawH : W16) :
    2 * (65535 * (hCenti rawH : Int) - 10000 * (rawH.toNat : Int)) < 65535 ∧
    -65535 < 2 * (65535 * (hCenti rawH : Int) - 10000 * (rawH.toNat : Int)) := by
  have heq : (hCenti rawH : Int) = (10000 * (rawH.toNat : Int) + 32767) / 65535 := by simp [hCenti]
  rw [heq]
  exact roundedQuotient_nearest _

theorem hCenti_mono {a b : W16} (h : a.toNat ≤ b.toNat) : hCenti a ≤ hCenti b :=
  Nat.div_le_div_right (Nat.add_le_add_right (Nat.mul_le_mul_left _ h) _)

theorem hCenti_le (rawH : W16) : hCenti rawH ≤ 10000 := by
  have hlt : rawH.toNat < 65536 := rawH.isLt
  rw [hCenti]
  omega

/-- The u16 that is stored is `H_centi` itself: its range fits (43_decoder.md R205, 30_encoding.md R103). -/
theorem hWord_toNat (rawH : W16) : (hWord rawH).toNat = hCenti rawH := by
  have hle : hCenti rawH ≤ 10000 := hCenti_le rawH
  rw [hWord, BitVec.toNat_ofNat]
  exact Nat.mod_eq_of_lt (by omega)

/-- CONV_T returns the stored `T_centi` and leaves the rest of the state (43_decoder.md R204). -/
theorem exec_convT (rawT : W16) (s : State) : exec (.convT rawT) s = .next { s with ret := .s16 (tWord rawT) } := rfl

/-- CONV_RH returns the stored `H_centi` and leaves the rest of the state (43_decoder.md R205). -/
theorem exec_convRh (rawH : W16) (s : State) : exec (.convRh rawH) s = .next { s with ret := .u16 (hWord rawH) } := rfl

/-- Settles O31: the integer is `T_centi`, whose rounding, range and monotony are the lemmas above; the corner cases of R204 by evaluation. -/
theorem convTRoundsToNearest : Obligations.ConvTRoundsToNearest := by
  unfold Obligations.ConvTRoundsToNearest
  refine ⟨fun s rawT => ?_, fun a b => tCenti_mono, by decide⟩
  exact ⟨tCenti rawT, exec_convT rawT s, tWord_toInt rawT, tCenti_eq rawT, tCenti_nearest rawT⟩

/-- Settles O32: the number is `H_centi`, whose rounding, range and monotony are the lemmas above; the corner cases of R205 by evaluation. -/
theorem convRhRoundsToNearest : Obligations.ConvRhRoundsToNearest := by
  unfold Obligations.ConvRhRoundsToNearest
  refine ⟨fun s rawH => ?_, fun a b => hCenti_mono, by decide⟩
  exact ⟨hCenti rawH, exec_convRh rawH s, hWord_toNat rawH, rfl, hCenti_le rawH, hCenti_nearest rawH⟩

/-- The temperature of an accepted raw word: `T_centi` is monotone, so the bounds of `T_OK` carry over (43_decoder.md R208). -/
theorem tCenti_range_of_tOk {rawT : W16} (h : tOk rawT = true) : -2000 ≤ tCenti rawT ∧ tCenti rawT ≤ 12500 := by
  obtain ⟨hlo, hhi⟩ := (tOk_iff rawT).1 h
  have hmin : tCenti 9363#16 = -2000 := by decide
  have hmax : tCenti 63662#16 = 12500 := by decide
  exact ⟨hmin ▸ tCenti_mono hlo, hmax ▸ tCenti_mono hhi⟩

/-- Settles O35: the range is that of `T_centi` between the bounds of `T_OK`, and both bounds are reached, by evaluation. -/
theorem acceptedTemperatureRange : Obligations.AcceptedTemperatureRange := by
  unfold Obligations.AcceptedTemperatureRange
  refine ⟨fun rawT hok => ?_, by decide⟩
  obtain ⟨hlo, hhi⟩ := tCenti_range_of_tOk hok
  exact ⟨hlo, hhi, tWord_toInt rawT⟩

/-! ## What a sub-operation with a failing test leaves, and one whose tests all pass -/

section

variable {i : Instr} {s : State} {e : Option ErrCode} {r : SubResult} {code : ErrCode}

/-- No test fails: the result is returned and the rest of the state stays. -/
theorem exec_returns_of_none (h : exec i s = .next (unlessError e (returning r) s)) (he : e = none) :
    exec i s = .next { s with ret := r } := by
  rw [h, he, unlessError_none, returning]

/-- A test fails: the operation ends in the abort with its error, no result returned (60_exceptions.md R266). -/
theorem exec_aborts_of_some (h : exec i s = .next (unlessError e (returning r) s)) (he : e = some code) :
    ∃ t, exec i s = .next t ∧ aborted code s t :=
  ⟨abort code s, by rw [h, he, unlessError_some], aborted_abort code s⟩

end

/-! ## DECODE_MEAS -/

/-- The raw temperature word is bytes 0 and 1, big-endian. -/
theorem rawTOf_eq {x : RxBuf} {rawT : W16} (h : rawT.toNat = 256 * x.b0.toNat + x.b1.toNat) : rawTOf x = rawT :=
  BitVec.eq_of_toNat_eq ((rawWord_toNat _ _).trans h.symm)

/-- The raw humidity word is bytes 3 and 4, big-endian. -/
theorem rawHOf_eq {x : RxBuf} {rawH : W16} (h : rawH.toNat = 256 * x.b3.toNat + x.b4.toNat) : rawHOf x = rawH :=
  BitVec.eq_of_toNat_eq ((rawWord_toNat _ _).trans h.symm)

/-- A temperature out of bounds raises `ImplausibleReading`, whatever the humidity (43_decoder.md R210). -/
theorem measError_of_not_tOk {x : RxBuf} (h : ¬ tOk (rawTOf x) = true) : measError x = some .implausibleReading :=
  if_neg (by simp [h])

/-- DECODE_MEAS goes on to return both quantities and both raw words unless the frame raises an error (43_decoder.md R210). -/
theorem exec_decodeMeas (s : State) :
    exec .decodeMeas s = .next (unlessError (measError s.rxbuf)
      (returning (.meas (tWord (rawTOf s.rxbuf)) (hWord (rawHOf s.rxbuf)) (rawTOf s.rxbuf) (rawHOf s.rxbuf))) s) := rfl

/-- Settles O36: the frame raises an error exactly if its raw temperature is outside the bounds of `T_OK`. -/
theorem decodeMeasDecides : Obligations.DecodeMeasDecides := by
  unfold Obligations.DecodeMeasDecides
  intro s b0 b1 b2 b3 b4 b5 rawT rawH hrx hT hH
  have hrawT : rawTOf s.rxbuf = rawT := rawTOf_eq (by rw [hrx, hT])
  have hrawH : rawHOf s.rxbuf = rawH := rawHOf_eq (by rw [hrx, hH])
  have hok : tOk (rawTOf s.rxbuf) = true ↔ 9363 ≤ rawT.toNat ∧ rawT.toNat ≤ 63662 := hrawT ▸ tOk_iff rawT
  constructor
  · intro hlo hhi
    have hret := exec_returns_of_none (exec_decodeMeas s) (measError_none.2 (hok.2 ⟨hlo, hhi⟩))
    rwa [hrawT, hrawH, tWord, tCenti_eq] at hret
  · intro hout
    have hbad : ¬ tOk (rawTOf s.rxbuf) = true := fun h => by have := hok.1 h; omega
    exact exec_aborts_of_some (exec_decodeMeas s) (measError_of_not_tOk hbad)

/-! ## DECODE_SERIAL -/

/-- The serial number of a four-byte reply is bytes 0 to 3, big-endian (43_decoder.md R212). -/
theorem serialRaw4Of_eq {x : RxBuf} {sn : W32}
    (h : sn.toNat = 16777216 * x.b0.toNat + 65536 * x.b1.toNat + 256 * x.b2.toNat + x.b3.toNat) : serialRaw4Of x = sn :=
  BitVec.eq_of_toNat_eq ((serialRaw4Of_toNat x).trans h.symm)

/-- The serial number of a six-byte reply is bytes 0, 1, 3 and 4, big-endian (43_decoder.md R213). -/
theorem serialChecked6Of_eq {x : RxBuf} {sn : W32}
    (h : sn.toNat = 16777216 * x.b0.toNat + 65536 * x.b1.toNat + 256 * x.b3.toNat + x.b4.toNat) : serialChecked6Of x = sn :=
  BitVec.eq_of_toNat_eq ((serialChecked6Of_toNat x).trans h.symm)

/-- The all-ones number raises `InvalidResponse` (43_decoder.md R214). -/
theorem serialError_of_sentinel {sn : W32} (h : sn = 0xFFFFFFFF#32) : serialError sn = some .invalidResponse := if_pos h

/-- A failing checksum is the error of the reply, whatever its number (43_decoder.md R213). -/
theorem checkedSerialError_of_not_ok {x : RxBuf} (h : ¬ frameOk x = true) : checkedSerialError x = some .checksumMismatch := by
  rw [checkedSerialError, frameError_of_not_ok h, Option.some_or]

/-- With both checksums good, the error of the reply is that of its number (43_decoder.md R213). -/
theorem checkedSerialError_of_ok {x : RxBuf} (h : frameOk x = true) : checkedSerialError x = serialError (serialChecked6Of x) := by
  rw [checkedSerialError, frameError_none.2 h, Option.none_or]

/-- DECODE_SERIAL_raw4 goes on to return the number unless it raises an error; no checksum is computed (43_decoder.md R212). -/
theorem exec_decodeSerialRaw4 (s : State) :
    exec .decodeSerialRaw4 s =
      .next (unlessError (serialError (serialRaw4Of s.rxbuf)) (returning (.serial (serialRaw4Of s.rxbuf))) s) := rfl

/-- DECODE_SERIAL_checked6 goes on to return the number unless the reply raises an error (43_decoder.md R213). -/
theorem exec_decodeSerialChecked6 (s : State) :
    exec .decodeSerialChecked6 s =
      .next (unlessError (checkedSerialError s.rxbuf) (returning (.serial (serialChecked6Of s.rxbuf))) s) := rfl

/-- Settles O37: the number composed is the one given, and only the all-ones number raises an error. -/
theorem decodeSerialRaw4Decides : Obligations.DecodeSerialRaw4Decides := by
  unfold Obligations.DecodeSerialRaw4Decides
  intro s b0 b1 b2 b3 b4 b5 sn hrx hval
  have hsn : serialRaw4Of s.rxbuf = sn := serialRaw4Of_eq (by rw [hrx, hval])
  have hexec := exec_decodeSerialRaw4 s
  rw [hsn] at hexec
  exact ⟨fun hne => exec_returns_of_none hexec (serialError_none.2 hne),
    fun heq => exec_aborts_of_some hexec (serialError_of_sentinel heq)⟩

/-- Settles O38: a failing checksum decides the outcome alone; with both good it is decided as in O37. -/
theorem decodeSerialChecked6Decides : Obligations.DecodeSerialChecked6Decides := by
  unfold Obligations.DecodeSerialChecked6Decides
  intro s b0 b1 b2 b3 b4 b5 sn hrx hval
  have hsn : serialChecked6Of s.rxbuf = sn := serialChecked6Of_eq (by rw [hrx, hval])
  have hok : frameOk s.rxbuf = true ↔ crc8 b0 b1 0xFF#8 = b2 ∧ crc8 b3 b4 0xFF#8 = b5 := hrx ▸ frameOk_iff b0 b1 b2 b3 b4 b5
  have hexec := exec_decodeSerialChecked6 s
  rw [hsn] at hexec
  have herr (h0 : crc8 b0 b1 0xFF#8 = b2) (h1 : crc8 b3 b4 0xFF#8 = b5) : checkedSerialError s.rxbuf = serialError sn := by
    rw [checkedSerialError_of_ok (hok.2 ⟨h0, h1⟩), hsn]
  refine ⟨fun hfail => ?_, fun h0 h1 hne => ?_, fun h0 h1 heq => ?_⟩
  · exact exec_aborts_of_some hexec (checkedSerialError_of_not_ok fun h => not_and_or.2 hfail (hok.1 h))
  · exact exec_returns_of_none hexec ((herr h0 h1).trans (serialError_none.2 hne))
  · exact exec_aborts_of_some hexec ((herr h0 h1).trans (serialError_of_sentinel heq))

end Sys2Proof.Machine
end

section
/-! PROOFS. 60_exceptions.md R264: which operation words begin an operation, and what the refusal of the others changes. -/

namespace Sys2Proof.Machine

/-! ## The fields of an operation word -/

/-- An operation word is its three fields (30_encoding.md R91). -/
theorem toNat_eq_fields (w : Byte) :
    w.toNat = 32 * (opcField w).toNat + 4 * (rateField w).toNat + (repField w).toNat := by
  simp only [opcField, rateField, repField, BitVec.extractLsb'_toNat, Nat.shiftRight_eq_div_pow]
  omega

/-- Every code but the reserved one is a repeatability's (30_encoding.md R93). -/
theorem repOfCode_isSome (c : BitVec 2) : (repOfCode c).isSome = decide (c.toNat ≤ 2) := by
  revert c
  decide

/-- The legal words by their fields, a row of 30_encoding.md R92 to R95 each. -/
theorem legalWord_iff (c : Config) (w : Byte) :
    legalWord c w = true ↔
      ((opcField w).toNat = 1 ∧ rateField w = 0#3 ∧ repField w = 0#2) ∨
      ((opcField w).toNat = 2 ∧ rateField w = 0#3 ∧ repField w = 0#2) ∨
      ((opcField w).toNat = 3 ∧ rateField w = 0#3 ∧ (repOfCode (repField w)).isSome = true) ∨
      ((opcField w).toNat = 4 ∧ c.hasPeriodicStart = true ∧ (rateField w).toNat < c.nRates ∧ (repOfCode (repField w)).isSome = true) := by
  have hw := toNat_eq_fields w
  have hrate := (rateField w).isLt
  have hrep := (repField w).isLt
  simp only [legalWord, repOfCode_isSome, BitVec.toNat_eq, Bool.or_eq_true, Bool.and_eq_true, beq_iff_eq, decide_eq_true_eq,
    BitVec.toNat_ofNat]
  cases c.hasPeriodicStart with
  | true => simp only [true_and]; omega
  | false => simp only [Bool.false_eq_true, false_and, and_false, or_false]; omega

/-! ## The start step, begun or refused -/

theorem startOp_of_admitted {op : HostOp} {s : State} (hbusy : s.busy = false) (h : admitted op s = true) :
    startOp op s = beginOp op (clearEnded s) := by
  simp [startOp, hbusy, h]

theorem startOp_of_not_admitted {op : HostOp} {s : State} (hbusy : s.busy = false) (h : ¬ admitted op s = true) :
    startOp op s = refuseOp s := by
  simp [startOp, hbusy, h]

@[simp] theorem beginOp_busy (op : HostOp) (s : State) : (beginOp op s).busy = true := by cases op <;> rfl
@[simp] theorem beginOp_done (op : HostOp) (s : State) : (beginOp op s).done = s.done := by cases op <;> rfl
@[simp] theorem beginOp_err (op : HostOp) (s : State) : (beginOp op s).err = s.err := by cases op <;> rfl

/-- In a quiescent block `complete` has nothing left to clear: the refusal sets `ERR` and `DONE` and leaves the rest (44_session_ops.md R237). -/
theorem refuseOp_of_quiescent {s : State} (h : Quiescent s) : refuseOp s = { s with err := .illegalOp, done := true } := by
  obtain ⟨hbusy, hphase, hdly, htmo, hscl, hsda, hpos, hret⟩ := h
  simp only [refuseOp, complete, clearEnded, hbusy, hphase, hdly, htmo, hscl, hsda, hpos, hret]

theorem exec_illegal_of_not_busy {s : State} (w : Byte) (hbusy : s.busy = false) : exec (.illegal w) s = .next (refuseOp s) :=
  congrArg Host.Outcome.next (if_neg (by simp [hbusy]))

theorem exec_measInstr (rep : Rep) (s : State) : exec (measInstr rep) s = .next (startOp (.meas rep) s) := by
  cases rep <;> rfl

theorem exec_pstart (rate : BitVec 3) (rep : Rep) (s : State) : exec (.pstart rate rep) s = .next (startOp (.pstart rate rep) s) := rfl

/-! ## What a write of `OP` runs -/

/-- The words below 0x80 are those whose `opc` is below PSTART's 4. -/
theorem toNat_lt_0x80_iff (w : Byte) : w.toNat < 0x80 ↔ (opcField w).toNat < 4 := by
  have hw := toNat_eq_fields w
  have hrate := (rateField w).isLt
  have hrep := (repField w).isLt
  omega

/-- A legal word runs the start step of its operation, which the mode alone can refuse, and only PSTART (44_session_ops.md R236, R239). -/
theorem exec_decodeOp_of_legal {s : State} {w : Byte} (h : legalWord s.cfg w = true) :
    ∃ op, exec (decodeOp w) s = .next (startOp op s) ∧ (admitted op s = true ↔ w.toNat < 0x80 ∨ s.mode ≠ .uninitialized) := by
  rw [toNat_lt_0x80_iff]
  obtain ⟨hopc, hrate, hrep⟩ | ⟨hopc, hrate, hrep⟩ | ⟨hopc, hrate, hrep⟩ | ⟨hopc, hopt, hrate, hrep⟩ := (legalWord_iff _ _).1 h
  · exact ⟨.init, congrArg (exec · s) (show decodeOp w = .init by simp [decodeOp, hopc, hrate, hrep]), by simp [admitted, hopc]⟩
  · exact ⟨.rdsn, congrArg (exec · s) (show decodeOp w = .rdsn by simp [decodeOp, hopc, hrate, hrep]), by simp [admitted, hopc]⟩
  · obtain ⟨rep, hrep⟩ := Option.isSome_iff_exists.1 hrep
    exact ⟨.meas rep, by simp [decodeOp, hopc, hrate, hrep, exec_measInstr], by simp [admitted, hopc]⟩
  · obtain ⟨rep, hrep⟩ := Option.isSome_iff_exists.1 hrep
    exact ⟨.pstart (rateField w) rep, by simp [decodeOp, hopc, hrep, exec_pstart], by simp [admitted, hopc, hopt, hrate]⟩

/-- A word that is not legal is refused: it decodes to (illegal), or it has PSTART's form and the configuration does not admit it (log 15). -/
theorem exec_decodeOp_of_not_legal {s : State} {w : Byte} (hbusy : s.busy = false) (h : ¬ legalWord s.cfg w = true) :
    exec (decodeOp w) s = .next (refuseOp s) := by
  have hillegal := exec_illegal_of_not_busy w hbusy
  rw [legalWord_iff] at h
  push Not at h
  obtain ⟨hinit, hrdsn, hmeas, hpstart⟩ := h
  unfold decodeOp
  split
  case h_1 hopc => rwa [if_neg (not_and.2 (hinit hopc))]
  case h_2 hopc => rwa [if_neg (not_and.2 (hrdsn hopc))]
  case h_3 hopc =>
    split
    · next hrate =>
      have hrep : repOfCode (repField w) = none := by simpa using hmeas hopc hrate
      rwa [hrep]
    · exact hillegal
  case h_4 hopc =>
    split
    · next rep hrep =>
      have hna : ¬ admitted (.pstart (rateField w) rep) s = true := by
        intro ha
        simp only [admitted, Bool.and_eq_true, decide_eq_true_eq] at ha
        exact hpstart hopc ha.1.1 ha.1.2 (by rw [hrep, Option.isSome_some])
      rw [exec_pstart, startOp_of_not_admitted hbusy hna]
    · exact hillegal
  case h_5 => exact hillegal

/-- A legal word begins its operation, unless the mode is `Uninitialized` and the word PSTART's. -/
theorem exec_decodeOp_begins {s : State} {w : Byte} (hbusy : s.busy = false) (hlegal : legalWord s.cfg w = true)
    (hmode : w.toNat < 0x80 ∨ s.mode ≠ .uninitialized) :
    ∃ t, exec (decodeOp w) s = .next t ∧ t.busy = true ∧ t.done = false ∧ t.err = .ok := by
  obtain ⟨op, hexec, hadm⟩ := exec_decodeOp_of_legal hlegal
  rw [startOp_of_admitted hbusy (hadm.2 hmode)] at hexec
  exact ⟨_, hexec, by simp⟩

/-- Settles O3: a word that is not legal is refused, a legal one begins its operation, and a legal PSTART word in `Uninitialized` is not admitted. -/
theorem operationWordStartsOrIsRefused : Obligations.OperationWordStartsOrIsRefused := by
  unfold Obligations.OperationWordStartsOrIsRefused
  intro s w hq
  have hbusy : s.busy = false := hq.1
  rw [← refuseOp_of_quiescent hq]
  refine ⟨fun hbad => ?_, fun hlegal hlow => ?_, fun hlegal _ hmode => ?_, fun hlegal hpstart hmode => ?_⟩
  · exact exec_decodeOp_of_not_legal hbusy (by simp [hbad])
  · exact exec_decodeOp_begins hbusy hlegal (.inl hlow)
  · exact exec_decodeOp_begins hbusy hlegal (.inr hmode)
  · obtain ⟨op, hexec, hadm⟩ := exec_decodeOp_of_legal hlegal
    have hna : ¬ admitted op s = true := fun ha => (hadm.1 ha).elim (Nat.not_lt.2 hpstart) (absurd hmode)
    rw [hexec, startOp_of_not_admitted hbusy hna]

end Sys2Proof.Machine
end

section
/-! PROOFS. 30_encoding.md: every row of the table that has an encoding decodes from it, and the layout of the address byte. -/

namespace Sys2Proof

/-! ## Operation words -/

/-- PSTART's word gives back its rate and its repeatability (30_encoding.md R91, R92). -/
theorem decodeOp_pstart (rate : BitVec 3) (rep : Rep) : decodeOp (opWord 4#3 rate (repCode rep)) = .pstart rate rep := by
  revert rate
  cases rep <;> decide

/-- A word of no operation's form is (illegal) and keeps its bits (30_encoding.md R95). -/
theorem decodeOp_of_not_isOpForm {w : Byte} (h : isOpForm w = false) : decodeOp w = .illegal w := by
  revert w
  decide

/-! ## Address bytes -/

/-- The address byte in arithmetic: the direction is its lowest bit (30_encoding.md R96). -/
theorem addrByteW_toNat (a : Addr7) : (addrByteW a).toNat = 2 * a.toNat := by
  rw [addrByteW, BitVec.toNat_append, ← Nat.shiftLeft_add_eq_or_of_lt (by decide), Nat.shiftLeft_eq]
  simp [Nat.mul_comm]

theorem addrByteR_toNat (a : Addr7) : (addrByteR a).toNat = 2 * a.toNat + 1 := by
  rw [addrByteR, BitVec.toNat_append, ← Nat.shiftLeft_add_eq_or_of_lt (by decide), Nat.shiftLeft_eq]
  simp [Nat.mul_comm]

theorem decodeAddrb_addrByteW (a : Addr7) : decodeAddrb (addrByteW a) = .addrbW a := by
  have hdir : (addrByteW a).extractLsb' 0 1 = 0#1 := by
    apply BitVec.eq_of_toNat_eq
    simp [addrByteW_toNat]
  have haddr : (addrByteW a).extractLsb' 1 7 = a := by
    apply BitVec.eq_of_toNat_eq
    rw [BitVec.extractLsb'_toNat, addrByteW_toNat, Nat.shiftRight_eq_div_pow]
    omega
  rw [decodeAddrb, if_pos hdir, haddr]

theorem decodeAddrb_addrByteR (a : Addr7) : decodeAddrb (addrByteR a) = .addrbR a := by
  have hdir : ¬ (addrByteR a).extractLsb' 0 1 = 0#1 := by
    rw [BitVec.toNat_eq]
    simp [addrByteR_toNat]
  have haddr : (addrByteR a).extractLsb' 1 7 = a := by
    apply BitVec.eq_of_toNat_eq
    rw [BitVec.extractLsb'_toNat, addrByteR_toNat, Nat.shiftRight_eq_div_pow]
    omega
  rw [decodeAddrb, if_neg hdir, haddr]

/-! ## Command words -/

/-- The table's words are distinct: each is read as its own row (30_encoding.md R98). -/
theorem decodeCommand_default {cmd : Command} (h : cmd ∈ tableCommands) :
    decodeCommand Config.default (commandWord Config.default cmd) = some cmd := by
  revert cmd
  decide

/-- The wire form of a table command decodes to the row that stands for it (30_encoding.md R97). -/
theorem decode_commandBytes {cmd : Command} (h : cmd ∈ tableCommands) :
    decode .cmd16 (commandBytes Config.default cmd) = .ok cmd.toInstr := by
  simp only [commandBytes, decode, Machine.high_append_low, decodeCommand_default h]

/-- Every row of format CMD16 stands for a command (30_encoding.md R98). -/
theorem command_of_format_cmd16 {i : Instr} (h : i.format = .cmd16) : ∃ cmd, i.command = some cmd := by
  cases i <;> cases h <;> exact ⟨_, rfl⟩

/-- A command row is the table's row of its command, and its encoding is that command's wire form (30_encoding.md R97, R98). -/
theorem row_of_command {i : Instr} {cmd : Command} (h : i.command = some cmd) :
    cmd ∈ tableCommands ∧ i = cmd.toInstr ∧ encode i = commandBytes Config.default cmd := by
  cases i <;> cases h <;> exact ⟨by decide, rfl, rfl⟩

/-- Settles O2: by the format, and in each by the instruction. -/
theorem decodeAfterEncodeIsIdentity : Obligations.DecodeAfterEncodeIsIdentity := by
  unfold Obligations.DecodeAfterEncodeIsIdentity
  intro i hwf hformat
  cases hf : i.format with
  | none => exact absurd hf hformat
  | cmd16 =>
    obtain ⟨cmd, hcmd⟩ := command_of_format_cmd16 hf
    obtain ⟨hmem, hrow, henc⟩ := row_of_command hcmd
    rw [henc, decode_commandBytes hmem, hrow]
  | addrb =>
    cases i with
    | addrbW a => exact congrArg Except.ok (decodeAddrb_addrByteW a)
    | addrbR a => exact congrArg Except.ok (decodeAddrb_addrByteR a)
    | _ => cases hf
  | opw =>
    cases i with
    | init | rdsn | measH | measM | measL => rfl
    | pstart rate rep => exact congrArg Except.ok (decodeOp_pstart rate rep)
    | illegal w => exact congrArg Except.ok (decodeOp_of_not_isOpForm (by simpa [Instr.wf] using hwf))
    | _ => cases hf

/-- Settles O1: the words of 30_encoding.md, by evaluation of the decoder. -/
theorem knownWordsDecode : Obligations.KnownWordsDecode := by
  unfold Obligations.KnownWordsDecode
  decide

/-- Settles O21: the layout, checked for each of the 128 device addresses. -/
theorem addressByteLayout : Obligations.AddressByteLayout := by
  unfold Obligations.AddressByteLayout
  decide

end Sys2Proof
end

section
/-! PROOFS. 40_bus_transport.md R141: a whole transaction of the sequencer is what its symbols and phase transitions reach, one after the other. -/

namespace Sys2Proof.Machine

/-! ## Steps of the sequencer alone -/

/-- `k` steps of the sequencer, none of them in the settle delay, lead from one state to another. -/
inductive SeqRun : Nat → State → State → Prop
  | refl (s : State) : SeqRun 0 s s
  | head {k : Nat} {s t u : State} : s.phase ≠ .settle → seqStep s = .next t → SeqRun k t u → SeqRun (k + 1) s u

/-- The sequencer reaches a state within `n` of its steps. -/
def ReachesWithin (n : Nat) (s t : State) : Prop := ∃ k ≤ n, SeqRun k s t

theorem ReachesWithin.refl (n : Nat) (s : State) : ReachesWithin n s s := ⟨0, n.zero_le, .refl s⟩

theorem ReachesWithin.head {n : Nat} {s t u : State} (hp : s.phase ≠ .settle) (hs : seqStep s = .next t) (h : ReachesWithin n t u) :
    ReachesWithin (n + 1) s u := by
  obtain ⟨k, hk, hrun⟩ := h
  exact ⟨k + 1, Nat.succ_le_succ hk, .head hp hs hrun⟩

theorem ReachesWithin.one {n : Nat} {s t : State} (hp : s.phase ≠ .settle) (hs : seqStep s = .next t) : ReachesWithin (n + 1) s t :=
  .head hp hs (.refl n t)

theorem ReachesWithin.mono {m n : Nat} {s t : State} (hmn : m ≤ n) (h : ReachesWithin m s t) : ReachesWithin n s t := by
  obtain ⟨k, hk, hrun⟩ := h
  exact ⟨k, hk.trans hmn, hrun⟩

/-! ## The symbols of a WRITE -/

/-- The position in a transaction once a byte sent has been answered (40_bus_transport.md R133 to R135). -/
def answered (onAck : BusPos) : Ack → BusPos
  | .ack => onAck
  | a => .failing a

/-- The state with another position in the transaction. -/
def atPos (p : BusPos) (s : State) : State := { s with pos := p }

@[simp] theorem atPos_pos (p : BusPos) (s : State) : (atPos p s).pos = p := rfl
@[simp] theorem atPos_cfg (p : BusPos) (s : State) : (atPos p s).cfg = s.cfg := rfl
@[simp] theorem atPos_phase (p : BusPos) (s : State) : (atPos p s).phase = s.phase := rfl
@[simp] theorem atPos_txbuf (p : BusPos) (s : State) : (atPos p s).txbuf = s.txbuf := rfl
@[simp] theorem atPos_len (p : BusPos) (s : State) : (atPos p s).len = s.len := rfl
@[simp] theorem atPos_idx (p : BusPos) (s : State) : (atPos p s).idx = s.idx := rfl

/-- Sending a byte does not read the position. -/
theorem sendByte_atPos (b : Byte) (s : State) (p : BusPos) : sendByte b (atPos p s) = atPos p (sendByte b s) := rfl

/-- A WRITE ends with the bus closed, whatever the position was. -/
theorem sendAll_atPos (bytes : List Byte) : ∀ (s : State) (p : BusPos), sendAll bytes (atPos p s) = sendAll bytes s := by
  induction bytes with
  | nil => intro s p; rfl
  | cons b rest ih =>
    intro s p
    have hans : ackAnswer (atPos p s) = ackAnswer s := rfl
    simp only [sendAll, hans, sendByte_atPos]
    cases ackAnswer s with
    | ack => exact ih _ p
    | nack | timeout => rfl

/-- What ends a failed transaction does not read the position (40_bus_transport.md R135). -/
theorem endFailed_atPos {a : Ack} (ha : a ≠ .ack) (p : BusPos) (s : State) : endFailed a (atPos p s) = endFailed a s := by
  cases a with
  | ack => exact absurd rfl ha
  | nack | timeout => rfl

theorem reaches_failed_write {s : State} {a : Ack} (n : Nat) (hp : s.phase = .write) (ha : a ≠ .ack) :
    ReachesWithin (n + 1) (atPos (.failing a) s) (returning .busError (endFailed a s)) := by
  refine .one (by simp [hp]) ?_
  simp only [seqStep, atPos_phase, hp, seqWrite, atPos_pos, endFailed_atPos ha]

/-- One byte of a WRITE: where an `ACK` leads on to the rest of the bytes, any answer leads to what `sendAll` gives. -/
theorem reaches_sendAll_cons {n : Nat} {s : State} {b : Byte} {rest : List Byte} {p : BusPos} (hp : s.phase = .write)
    (hs : seqStep s = .next (atPos (answered p (ackAnswer s)) (sendByte b s)))
    (hrest : ReachesWithin (n + 1) (atPos p (sendByte b s)) (sendAll rest (atPos p (sendByte b s)))) :
    ReachesWithin (n + 2) s (sendAll (b :: rest) s) := by
  refine .head (by simp [hp]) hs ?_
  rw [sendAll]
  cases hans : ackAnswer s with
  | ack => rwa [sendAll_atPos] at hrest
  | nack | timeout => exact reaches_failed_write n (by simp [hp]) (by simp)

section write

variable {s : State} (hp : s.phase = .write)
include hp

theorem seqStep_loaded (hpos : s.pos = .loaded) : seqStep s = .next (busStart s) := by simp only [seqStep, hp, seqWrite, hpos]

theorem seqStep_opened_write (hpos : s.pos = .opened) :
    seqStep s = .next (atPos (answered (.payload 0) (ackAnswer s)) (sendByte (addrByteW s.cfg.devAddr) s)) := by
  simp only [seqStep, hp, seqWrite, hpos]; rfl

theorem seqStep_payload_zero (hpos : s.pos = .payload 0) :
    seqStep s = .next (atPos (answered (.payload 1) (ackAnswer s)) (sendByte s.txbuf.b0 s)) := by
  simp only [seqStep, hp, seqWrite, hpos]; rfl

theorem seqStep_payload_one (hpos : s.pos = .payload 1) :
    seqStep s = .next (atPos (answered (.payload 2) (ackAnswer s)) (sendByte s.txbuf.b1 s)) := by
  simp only [seqStep, hp, seqWrite, hpos]; rfl

theorem seqStep_payload_two (hpos : s.pos = .payload 2) : seqStep s = .next (returning .ok (busStop s)) := by
  simp only [seqStep, hp, seqWrite, hpos]

/-- The symbols of the WRITE of `TXBUF`, from its `S` on (40_bus_transport.md R133, R141). -/
theorem reaches_writeTx_loaded (hpos : s.pos = .loaded) : ReachesWithin 6 s (writeTx s) := by
  refine .head (by simp [hp]) (seqStep_loaded hp hpos) ?_
  refine reaches_sendAll_cons (by simp [hp]) (seqStep_opened_write (by simp [hp]) (by simp)) ?_
  refine reaches_sendAll_cons (by simp [hp]) (seqStep_payload_zero (by simp [hp]) rfl) ?_
  refine reaches_sendAll_cons (by simp [hp]) (seqStep_payload_one (by simp [hp]) rfl) ?_
  exact .one (by simp [hp]) (seqStep_payload_two (by simp [hp]) rfl)

/-- SEND_CMD, from its load of `TXBUF` on (41_command_protocol.md R160; log 30). -/
theorem reaches_sendCommand {op : HostOp} (hop : latched s.lop = some op) (hpos : s.pos = .closed) (hret : s.ret = .none) :
    ReachesWithin 7 s (sendCommand (commandOf op) s) := by
  have hload : seqStep s = .next (atPos .loaded (loadCommand (commandOf op) s)) := by
    simp only [seqStep, hp, seqWrite, hpos, hret, withLatched, hop]; rfl
  exact .head (by simp [hp]) hload (reaches_writeTx_loaded rfl rfl)

end write

/-! ## The symbols of a READ -/

section read

variable {s : State} (hp : s.phase = .read)
include hp

theorem seqStep_opened_read (hpos : s.pos = .opened) :
    seqStep s = .next (atPos (answered .reading (ackAnswer s)) (sendByte (addrByteR s.cfg.devAddr) s)) := by
  simp only [seqStep, hp, seqRead, hpos]; rfl

theorem seqStep_reading_byte (hpos : s.pos = .reading) (hlt : s.idx < s.len) {v : Byte} (hans : byteAnswer s = .byte v) :
    seqStep s = .next (receiveByte v s) := by
  simp only [seqStep, hp, seqRead, hpos, hlt, if_true, hans]

theorem seqStep_reading_timeout (hpos : s.pos = .reading) (hlt : s.idx < s.len) (hans : byteAnswer s = .timeout) :
    seqStep s = .next (atPos (.failing .timeout) (receiveTimeout s)) := by
  simp only [seqStep, hp, seqRead, hpos, hlt, if_true, hans]; rfl

end read

theorem reaches_failed_read {s : State} {a : Ack} (n : Nat) (hp : s.phase = .read) (ha : a ≠ .ack) :
    ReachesWithin (n + 1) (atPos (.failing a) s) (readFailed (endFailed a s)) := by
  refine .one (by simp [hp]) ?_
  simp only [seqStep, atPos_phase, hp, seqRead, atPos_pos, endFailed_atPos ha]

/-- Receiving a byte neither reads nor changes the position. -/
theorem receiveByte_atPos (v : Byte) (s : State) (p : BusPos) :
    receiveByte v (atPos p s) = atPos p (receiveByte v s) := rfl

/-- A READ ends with the bus closed, whatever the position was. -/
theorem receiveAll_atPos (n : Nat) : ∀ (s : State) (p : BusPos), receiveAll n (atPos p s) = receiveAll n s := by
  induction n with
  | zero => intro s p; rfl
  | succ n ih =>
    intro s p
    have hans : byteAnswer (atPos p s) = byteAnswer s := rfl
    simp only [receiveAll, hans, receiveByte_atPos]
    cases byteAnswer s with
    | byte v => exact ih _ p
    | timeout => rfl

/-- The bytes of a READ still to come (40_bus_transport.md R134, R141). -/
theorem reaches_receiveAll (n : Nat) : ∀ {s : State}, s.phase = .read → s.pos = .reading → s.idx + n = s.len →
    ReachesWithin (n + 1) s (receiveAll n s) := by
  induction n with
  | zero =>
    intro s hp hpos hlen
    have hlast : ¬ s.idx < s.len := by omega
    exact .one (by simp [hp]) (by simp only [seqStep, hp, seqRead, hpos, hlast, if_false, receiveAll])
  | succ n ih =>
    intro s hp hpos hlen
    have hmore : s.idx < s.len := by omega
    rw [receiveAll]
    cases hans : byteAnswer s with
    | byte v =>
      exact .head (by simp [hp]) (seqStep_reading_byte hp hpos hmore hans) (ih (by simp [hp]) (by simp [hpos]) (by simp; omega))
    | timeout =>
      exact .head (by simp [hp]) (seqStep_reading_timeout hp hpos hmore hans) (reaches_failed_read n (by simp [hp]) (by simp))

/-- The READ of an operation's reply, from its `S` on (41_command_protocol.md R161). -/
theorem reaches_readTransaction {s : State} {n : Nat} (hp : s.phase = .read) (hpos : s.pos = .closed) (hret : s.ret = .none)
    (hn : (latched s.lop).bind (replyLength s.cfg) = some n) : ReachesWithin (n + 3) s (readTransaction s.cfg.devAddr n s) := by
  have hstart : seqStep s = .next (readStart n s) := by simp only [seqStep, hp, seqRead, hpos, hret, withReplyLength, hn]
  refine .head (by simp [hp]) hstart (.head (by simp [hp]) (seqStep_opened_read (by simp [hp]) (by simp)) ?_)
  rw [readTransaction, readStart_cfg]
  cases hans : ackAnswer (readStart n s) with
  | ack =>
    have hbytes := reaches_receiveAll n (s := atPos .reading (sendByte (addrByteR s.cfg.devAddr) (readStart n s)))
      (by simp [hp]) rfl (by simp)
    rwa [receiveAll_atPos] at hbytes
  | nack | timeout => exact reaches_failed_read n (by simp [hp]) (by simp)

end Sys2Proof.Machine
end

section
/-! PROOFS. 40_bus_transport.md R141, 20_memory.md R68: the two grains of the sequencer's steps, and what every step of the sequencer leaves alone. -/

namespace Sys2Proof.Machine

/-! ## The sub-operation as one step -/

theorem sendAll_phase (bytes : List Byte) : ∀ s : State, (sendAll bytes s).phase = s.phase := by
  induction bytes with
  | nil => intro s; rfl
  | cons b rest ih =>
    intro s
    rw [sendAll]
    cases ackAnswer s with
    | ack => simp only [ih, sendByte_phase]
    | nack | timeout => simp [endFailed]

theorem receiveAll_phase (n : Nat) : ∀ s : State, (receiveAll n s).phase = s.phase := by
  induction n with
  | zero => intro s; rfl
  | succ n ih =>
    intro s
    rw [receiveAll]
    cases byteAnswer s with
    | byte v => simp only [ih, receiveByte_phase]
    | timeout => simp [readFailed]

theorem writeTx_phase (s : State) : (writeTx s).phase = s.phase := by
  rw [writeTx, writeTransaction, sendAll_phase, busStart_phase]

theorem readTransaction_phase (addr : Addr7) (n : Nat) (s : State) : (readTransaction addr n s).phase = s.phase := by
  rw [readTransaction]
  cases ackAnswer (readStart n s) with
  | ack => simp [receiveAll_phase]
  | nack | timeout => simp [readFailed, endFailed]

theorem txOf_txWord (t : TxBuf) : txOf (txWord t) = t := by simp [txWord, txOf]

/-- The command that `TXBUF` holds is run as the WRITE of `TXBUF`, whether or not its word is a row's (log 17). -/
theorem exec_fetchCommand {s : State} (hp : s.phase = .write) : exec (fetchCommand s) s = .next (writeTx s) := by
  unfold fetchCommand
  split
  · next cmd hcmd =>
    have hword : commandWord s.cfg cmd = txWord s.txbuf := by
      simpa using List.find?_some hcmd
    have hload : loadCommand cmd s = s := by
      rw [loadCommand, hword, txOf_txWord, ← hp]
    rw [exec_toInstr, sendCommand, hload]
  · rfl

/-- A reply of an operation is read from `P_READ` as it stands (41_command_protocol.md R161). -/
theorem exec_readReply_of_length {s : State} {n : Nat} (hp : s.phase = .read) (hn : n = 4 ∨ n = 6) :
    exec (.readReply n) s = .next (readTransaction s.cfg.devAddr n s) := by
  have hs : { s with phase := .read } = s := by rw [← hp]
  rw [exec_readReply_eq_exec_read, exec_read_of_length _ _ hn, hs]

/-- The step `sub` is one step of the sequencer, or it is a whole transaction, which the sequencer's own steps reach (40_bus_transport.md R141). -/
theorem subStep_cases (s : State) :
    subStep s = seqStep s ∨
    ∃ t, subStep s = .next t ∧ s.phase ≠ .settle ∧ t.phase ≠ .idle ∧ ReachesWithin 10 s t := by
  unfold subStep
  split
  · next hp hpos hret =>
    cases hop : latched s.lop with
    | none => exact .inl (by simp only [withLatched, hop, seqStep, hp, seqWrite, hpos, hret])
    | some op =>
      refine .inr ⟨sendCommand (commandOf op) s, by simp only [withLatched, hop]; rfl, by simp [hp], ?_, ?_⟩
      · rw [sendCommand, writeTx_phase]; simp
      · exact (reaches_sendCommand hp hop hpos hret).mono (by decide)
  · next hp hpos =>
    refine .inr ⟨writeTx s, exec_fetchCommand hp, by simp [hp], ?_, (reaches_writeTx_loaded hp hpos).mono (by decide)⟩
    simp [writeTx_phase, hp]
  · next hp hpos hret =>
    cases hn : (latched s.lop).bind (replyLength s.cfg) with
    | none => exact .inl (by simp only [withReplyLength, hn, seqStep, hp, seqRead, hpos, hret])
    | some n =>
      obtain ⟨op, -, hlen⟩ := Option.bind_eq_some_iff.1 hn
      have h46 := replyLength_four_or_six hlen
      refine .inr ⟨_, by simp only [withReplyLength, hn]; exact exec_readReply_of_length hp h46, by simp [hp], ?_, ?_⟩
      · simp [readTransaction_phase, hp]
      · exact (reaches_readTransaction hp hpos hret hn).mono (by omega)
  · exact .inl rfl

/-! ## What every step of the sequencer leaves alone -/

/-- The trace has only grown, and the parameters and the pending moves are those of before. -/
structure Follows (s t : State) : Prop where
  trace : s.trace <+: t.trace
  cfg : t.cfg = s.cfg
  inputs : t.inputs = s.inputs

theorem Follows.refl (s : State) : Follows s s := ⟨List.prefix_rfl, rfl, rfl⟩

theorem Follows.trans {s t u : State} (h : Follows s t) (g : Follows t u) : Follows s u :=
  ⟨h.trace.trans g.trace, g.cfg.trans h.cfg, g.inputs.trans h.inputs⟩

theorem withLatched_next {s t : State} {f : HostOp → Host.Outcome State Fault Refusal} (h : withLatched s f = .next t) :
    ∃ op, latched s.lop = some op ∧ f op = .next t := by
  unfold withLatched at h
  split at h
  · next op hop => exact ⟨op, hop, h⟩
  · cases h

theorem withReplyLength_next {s t : State} {f : Nat → Host.Outcome State Fault Refusal} (h : withReplyLength s f = .next t) :
    ∃ n, (latched s.lop).bind (replyLength s.cfg) = some n ∧ f n = .next t := by
  unfold withReplyLength at h
  split at h
  · next n hn => exact ⟨n, hn, h⟩
  · cases h

theorem endFailed_follows (r : SubResult) (a : Ack) (s : State) : Follows s (returning r (endFailed a s)) := by
  cases a <;> constructor <;> simp [endFailed]

theorem readFailed_follows (a : Ack) (s : State) : Follows s (readFailed (endFailed a s)) := by
  cases a <;> constructor <;> simp [readFailed, endFailed]

theorem unlessError_follows {e : Option ErrCode} {goOn : State → State} {s : State} (h : Follows s (goOn s)) :
    Follows s (unlessError e goOn s) := by
  cases e with
  | none => exact h
  | some code => constructor <;> simp

theorem afterWrite_follows {s t : State} (h : afterWrite s = .next t) : Follows s t := by
  obtain ⟨op, -, hop⟩ := withLatched_next h
  cases op with
  | init => 
    simp only at hop
    split at hop <;> cases hop <;> constructor <;> simp [finishInit]
  | rdsn | meas rep => cases hop; constructor <;> simp
  | pstart rate rep => cases hop; constructor <;> simp [finishPstart]

theorem afterSettle_follows {s t : State} (h : afterSettle s = .next t) : Follows s t := by
  obtain ⟨op, -, hop⟩ := withLatched_next h
  cases op <;> cases hop <;> constructor <;> simp [finishInit]

theorem seqWrite_follows {s t : State} (h : seqWrite s = .next t) : Follows s t := by
  unfold seqWrite at h
  split at h
  · split at h
    · obtain ⟨op, -, hop⟩ := withLatched_next h
      cases hop
      constructor <;> simp
    · exact afterWrite_follows h
    · cases h
      constructor <;> simp
    · cases h
  case h_7 a hpos => cases h; exact endFailed_follows _ a s
  all_goals cases h <;> constructor <;> simp

theorem seqRead_follows {s t : State} (h : seqRead s = .next t) : Follows s t := by
  unfold seqRead at h
  split at h
  · split at h
    · obtain ⟨n, -, hn⟩ := withReplyLength_next h
      cases hn
      constructor <;> simp
    · cases h; exact ⟨List.prefix_rfl, rfl, rfl⟩
    · cases h
      constructor <;> simp
    · cases h
  · cases h; constructor <;> simp
  · split at h
    · split at h <;> cases h <;> constructor <;> simp
    · cases h; constructor <;> simp
  · next a hpos => cases h; exact readFailed_follows a s
  all_goals cases h

theorem seqDecode_follows {s t : State} (h : seqDecode s = .next t) : Follows s t := by
  obtain ⟨op, -, hop⟩ := withLatched_next h
  cases op with
  | init | pstart => cases hop
  | meas rep => cases hop; exact unlessError_follows (by constructor <;> simp [finishMeas])
  | rdsn =>
    cases hop
    unfold decodeSerial
    split <;> exact unlessError_follows (by constructor <;> simp [finishRdsn])

theorem seqStep_follows {s t : State} (h : seqStep s = .next t) : Follows s t := by
  unfold seqStep at h
  split at h
  · cases h; exact .refl s
  · cases h; constructor <;> simp
  · exact seqWrite_follows h
  · split at h
    · exact afterSettle_follows h
    · cases h; exact .refl s
  · exact seqRead_follows h
  · exact seqDecode_follows h

theorem SeqRun.follows {k : Nat} {s t : State} (h : SeqRun k s t) : Follows s t := by
  induction h with
  | refl s => exact .refl s
  | head _ hs _ ih => exact (seqStep_follows hs).trans ih

theorem subStep_follows {s t : State} (h : subStep s = .next t) : Follows s t := by
  obtain hseq | ⟨u, hu, -, -, k, -, hrun⟩ := subStep_cases s
  · exact seqStep_follows (hseq ▸ h)
  · cases hu.symm.trans h
    exact hrun.follows

/-- With no other agent's move pending, the sequencer's steps are the machine's (log 7). -/
theorem SeqRun.run_core {k : Nat} {s t : State} (h : SeqRun k s t) (hi : s.inputs = []) : Host.Core.run core k s = .next t := by
  induction h with
  | refl s => rfl
  | head hp hs _ ih =>
    rw [run_next _ ((step_of_seq hi (absurd · hp)).trans hs)]
    exact ih ((seqStep_follows hs).inputs.trans hi)

/-- Settles O52: a whole transaction is reached by its symbols; anywhere else the step `sub` is the sequencer's own, or waits for ticks. -/
theorem symbolStepsRefineSubOperations : Obligations.SymbolStepsRefineSubOperations := by
  unfold Obligations.SymbolStepsRefineSubOperations
  intro s t _ hi hsub
  obtain hseq | ⟨u, hu, -, -, k, hk, hrun⟩ := subStep_cases s
  · rw [hseq] at hsub
    by_cases hwait : s.phase = .settle ∧ s.dly ≠ 0
    · rw [seqStep, hwait.1] at hsub
      simp only [hwait.2, if_false] at hsub
      cases hsub
      exact ⟨0, by decide, rfl⟩
    · have hstep := step_of_seq hi fun hp => by_contra fun hd => hwait ⟨hp, hd⟩
      exact ⟨1, by decide, run_one (hstep.trans hsub)⟩
  · cases hu.symm.trans hsub
    exact ⟨k, hk, hrun.run_core hi⟩

end Sys2Proof.Machine
end

section
/-! PROOFS. 70_reset_and_hazards.md R305: everything one move of one agent can do from a state of the invariant, said once; the statements about
every step of the machine are read off it. -/

namespace Sys2Proof.Machine

/-! ## The sequencer inside an operation -/

theorem SameVisible.refl (s : State) : SameVisible s s := by constructor <;> rfl

theorem SameVisible.trans {s t u : State} (h : SameVisible s t) (g : SameVisible t u) : SameVisible s u :=
  ⟨g.cfg.trans h.cfg, g.busy.trans h.busy, g.done.trans h.done, g.mvalid.trans h.mvalid, g.snvalid.trans h.snvalid, g.err.trans h.err,
    g.mode.trans h.mode, g.temp.trans h.temp, g.hum.trans h.hum, g.rawt.trans h.rawt, g.rawh.trans h.rawh, g.serial.trans h.serial,
    g.lop.trans h.lop⟩

/-- The host reads nothing but what is visible (10_state.md R21). -/
theorem SameVisible.readReg {s t : State} (h : SameVisible s t) (n : Nat) : readReg t n = readReg s n := by
  unfold Machine.readReg
  simp only [statusWord, h.busy, h.done, h.mvalid, h.snvalid, h.err, h.mode, h.temp, h.hum, h.rawt, h.rawh, h.serial]

/-- An outcome of the sequencer that is no end leaves the block inside its operation. -/
theorem SeqOutcome.goesOn_or_idle {s t : State} (o : SeqOutcome s t) : GoesOn s t ∨ t.phase = .idle := by
  cases o with
  | goesOn _ h => exact .inl h
  | _ => exact .inr rfl

theorem seqStep_of_idle {s : State} (hp : s.phase = .idle) : seqStep s = .next s := by rw [seqStep, hp]

theorem SeqRun.idle {k : Nat} {s t : State} (h : SeqRun k s t) (hp : s.phase = .idle) : t.phase = .idle := by
  induction h with
  | refl s => exact hp
  | head _ hs _ ih =>
    cases (seqStep_of_idle hp).symm.trans hs
    exact ih hp

/-- Steps of the sequencer that do not end the operation change nothing visible and keep the invariant. -/
theorem SeqRun.goesOn {k : Nat} {s t : State} (hrun : SeqRun k s t) (h : Inv s) (hb : s.busy = true) (hp : t.phase ≠ .idle) :
    SameVisible s t ∧ Inv t := by
  induction hrun with
  | refl s => exact ⟨.refl s, h⟩
  | head _ hs hrest ih =>
    obtain ⟨u, hu, hout⟩ := seqStep_good h hb
    cases hu.symm.trans hs
    obtain hgo | hidle := hout.goesOn_or_idle
    · obtain ⟨hvis, hinv⟩ := ih hgo.inv (hgo.visible.busy.trans hb) hp
      exact ⟨hgo.visible.trans hvis, hinv⟩
    · exact absurd (hrest.idle hidle) hp

/-! ## One move of one agent -/

/-- What one move `m` from `s` can answer. -/
inductive MoveOutcome (m : Move) (s : State) : Host.Outcome State Fault Refusal → Prop
  /-- The block stays as it is: a read, a poll, an ignored write, a sequencer that waits. -/
  | waits (inputs : List Move) (reads : List (Nat × HostVal)) : MoveOutcome m s (.next { s with inputs := inputs, reads := reads })
  | ticks : m = .tick → MoveOutcome m s (.next (tick s))
  | resets : m = .rst → MoveOutcome m s (.next (blockReset s))
  | begins (op : HostOp) : s.busy = false → admitted op s = true → MoveOutcome m s (.next (beginOp op (clearEnded s)))
  | refuses : s.busy = false → MoveOutcome m s (.next (refuseOp s))
  /-- The sequencer goes on: nothing visible changes. -/
  | goesOn (t : State) : s.busy = true → (s.phase = .settle → s.dly = 0) → SameVisible s t → Inv t → MoveOutcome m s (.next t)
  /-- The sequencer's own step, which can be the end of the operation. -/
  | sequences (t : State) : s.busy = true → (s.phase = .settle → s.dly = 0) → SeqOutcome s t → MoveOutcome m s (.next t)
  | noRegister (n : Nat) : 8 < n → (m = .hostRead n ∨ ∃ v, m = .hostWrite n v) → MoveOutcome m s (.refused (.noSuchRegister n))

theorem readReg_none {s : State} {n : Nat} (h : readReg s n = none) : 8 < n := by
  by_contra hn
  interval_cases n <;> cases h

section

variable {s : State} (m : Move)

theorem MoveOutcome.same : MoveOutcome m s (.next s) := .waits s.inputs s.reads

theorem startOp_outcome (op : HostOp) : MoveOutcome m s (.next (startOp op s)) := by
  cases hb : s.busy with
  | true => rw [startOp, hb, if_pos rfl]; exact .same m
  | false =>
    by_cases ha : admitted op s = true
    · rw [startOp_of_admitted hb ha]; exact .begins op hb ha
    · rw [startOp_of_not_admitted hb ha]; exact .refuses hb

theorem exec_decodeOp_outcome (w : Byte) : MoveOutcome m s (exec (decodeOp w) s) := by
  obtain ⟨op, hop⟩ | hill := exec_decodeOp w s
  · rw [hop]; exact startOp_outcome m op
  · rw [hill]
    cases hb : s.busy with
    | true => exact .same m
    | false => exact .refuses hb

theorem seqStep_of_waiting (hp : s.phase = .settle) (hd : s.dly ≠ 0) : seqStep s = .next s := by
  rw [seqStep, hp]
  exact if_neg hd

theorem seqStep_outcome (h : Inv s) : MoveOutcome m s (seqStep s) := by
  cases hb : s.busy with
  | false =>
    obtain ⟨-, hp, -⟩ := h.quiescent hb
    rw [seqStep_of_idle hp]
    exact .same m
  | true =>
    by_cases hw : s.phase = .settle → s.dly = 0
    · obtain ⟨t, ht, hout⟩ := seqStep_good h hb
      rw [ht]
      exact .sequences t hb hw hout
    · obtain ⟨hp, hd⟩ := Classical.not_imp.1 hw
      rw [seqStep_of_waiting hp hd]
      exact .same m

theorem subStep_outcome (h : Inv s) : MoveOutcome m s (subStep s) := by
  obtain hseq | ⟨t, ht, hs, hp, k, -, hrun⟩ := subStep_cases s
  · rw [hseq]; exact seqStep_outcome m h
  · rw [ht]
    have hb : s.busy = true := h.busy_iff_phase.2 fun hidle => hp (hrun.idle hidle)
    obtain ⟨hvis, hinv⟩ := hrun.goesOn h hb hp
    exact .goesOn t hb (absurd · hs) hvis hinv

/-- Everything one move can do from a state of the invariant. -/
theorem runMove_outcome (h : Inv s) : MoveOutcome m s (runMove m s) := by
  cases m with
  | hostRead n =>
    simp only [runMove, hostRead]
    split
    · exact .waits s.inputs _
    · next hn => exact .noRegister n (readReg_none hn) (.inl rfl)
  | hostWrite n v =>
    simp only [runMove, hostWrite]
    split
    · exact exec_decodeOp_outcome _ _
    · split
      · exact .same _
      · exact .noRegister n (by omega) (.inr ⟨v, rfl⟩)
  | wait =>
    show MoveOutcome .wait s (execWait s)
    unfold execWait
    split
    · exact .waits s.inputs _
    · exact .waits _ _
  | tick => exact .ticks rfl
  | rst => exact .resets rfl
  | seq => exact seqStep_outcome _ h
  | sub => exact subStep_outcome _ h

end

theorem MoveOutcome.inv {m : Move} {s t : State} (h : Inv s) (o : MoveOutcome m s (.next t)) : Inv t := by
  cases o with
  | waits => exact h.of_agents rfl
  | ticks => exact tick_inv h
  | resets => exact blockReset_inv h
  | begins op hb ha => exact beginOp_inv op h hb ha
  | refuses hb => exact refuseOp_inv h hb
  | goesOn _ _ _ _ hinv => exact hinv
  | sequences _ hb _ hout => exact hout.inv h hb

/-! ## One step of the machine -/

/-- The move that the next step makes: the pending one, or with none pending the agents' own (log 7). -/
def nextMove (s : State) : Move := s.inputs.headD (autoMove s)

/-- The state with the next pending move taken from the list. -/
def popInput (s : State) : State := { s with inputs := s.inputs.tail }

theorem popInput_of_nil {s : State} (hi : s.inputs = []) : popInput s = s := by
  rw [popInput, hi, List.tail_nil, ← hi]

theorem step_eq_runMove (s : State) : step s = runMove (nextMove s) (popInput s) := by
  cases hi : s.inputs with
  | nil => rw [popInput_of_nil hi, step, nextMove, hi, List.headD_nil]
  | cons m rest => simp only [step, nextMove, popInput, hi, List.headD_cons, List.tail_cons]

theorem popInput_inv {s : State} (h : Inv s) : Inv (popInput s) := h.of_agents rfl

theorem popInput_visible (s : State) : SameVisible s (popInput s) := by constructor <;> rfl

/-- Everything one step can do from a state of the invariant. -/
theorem step_outcome {s : State} (h : Inv s) : MoveOutcome (nextMove s) (popInput s) (step s) :=
  step_eq_runMove s ▸ runMove_outcome (nextMove s) (popInput_inv h)

theorem step_next_outcome {s t : State} (h : Inv s) (hs : step s = .next t) : MoveOutcome (nextMove s) (popInput s) (.next t) :=
  hs ▸ step_outcome h

/-- The agents' own move is neither the host's nor the platform's: such a move is a pending one. -/
theorem head?_of_nextMove {s : State} {m : Move} (hm : nextMove s = m) (htick : m ≠ .tick) (hseq : m ≠ .seq) : s.inputs.head? = some m := by
  unfold nextMove at hm
  cases hi : s.inputs with
  | nil =>
    rw [hi, List.headD_nil, autoMove] at hm
    split at hm
    · exact absurd hm.symm htick
    · exact absurd hm.symm hseq
  | cons a rest => rw [hi] at hm; exact congrArg some hm

/-- Settles O48: each outcome of a move keeps the invariant. -/
theorem stepKeepsInvariant : Obligations.StepKeepsInvariant := by
  unfold Obligations.StepKeepsInvariant
  intro s t h hs
  exact (step_next_outcome h hs).inv (popInput_inv h)

/-- Settles O49: no outcome of a move is a fault, and the invariant is kept along the run. -/
theorem everyRunIsSafe : Obligations.EveryRunIsSafe := by
  unfold Obligations.EveryRunIsSafe
  intro s h k
  induction k generalizing s with
  | zero => intro f hf; cases hf
  | succ k ih =>
    intro f hf
    have hout := step_outcome h
    cases hs : step s with
    | next t => rw [run_next k hs] at hf; exact ih t (stepKeepsInvariant s t h hs) f hf
    | fault g => rw [hs] at hout; cases hout
    | refused r => rw [run_refused k hs] at hf; cases hf

/-- Settles O50: the one outcome that is a refusal is a host access above register 8. -/
theorem onlyBadRegistersAreRefused : Obligations.OnlyBadRegistersAreRefused := by
  unfold Obligations.OnlyBadRegistersAreRefused
  intro s r h hs
  have hout := step_outcome h
  rw [hs] at hout
  cases hout with
  | noRegister n hn hm =>
    refine ⟨n, hn, rfl, hm.imp (fun hr => ?_) (fun ⟨v, hv⟩ => ⟨v, ?_⟩)⟩
    · exact head?_of_nextMove hr (by simp) (by simp)
    · exact head?_of_nextMove hv (by simp) (by simp)

/-! ## Inside an operation -/

/-- A move after which the operation is still running has changed nothing visible. -/
theorem MoveOutcome.visible_of_busy {m : Move} {s t : State} (o : MoveOutcome m s (.next t)) (hb : s.busy = true) (hbt : t.busy = true) :
    SameVisible s t := by
  cases o with
  | waits | ticks => constructor <;> rfl
  | resets => cases hbt
  | begins _ hidle | refuses hidle => cases hb.symm.trans hidle
  | goesOn _ _ _ hvis => exact hvis
  | sequences _ _ _ hout =>
    cases hout with
    | goesOn _ hgo => exact hgo.visible
    | _ => cases hbt

/-- Settles O53: what is visible stays, and the host reads nothing else. -/
theorem hostSeesNothingWhileBusy : Obligations.HostSeesNothingWhileBusy := by
  unfold Obligations.HostSeesNothingWhileBusy
  intro s t h hb hs hbt
  have hvis := (popInput_visible s).trans ((step_next_outcome h hs).visible_of_busy hb hbt)
  exact ⟨hvis.readReg, hvis.lop, hvis.cfg⟩

/-- A move other than the block's reset that ends an operation is an outcome of the sequencer. -/
theorem MoveOutcome.seqOutcome_of_end {m : Move} {s t : State} (o : MoveOutcome m s (.next t)) (hb : s.busy = true) (hbt : t.busy = false)
    (hm : m ≠ .rst) : SeqOutcome s t := by
  cases o with
  | waits | ticks => cases hb.symm.trans hbt
  | resets hr => exact absurd hr hm
  | begins _ hidle | refuses hidle => cases hb.symm.trans hidle
  | goesOn _ _ _ hvis => cases (hvis.busy.trans hb).symm.trans hbt
  | sequences _ _ _ hout => exact hout

/-- The block's reset is never the agents' own move: if it is the next one, it is pending. -/
theorem nextMove_ne_rst {s : State} (h : s.inputs.head? ≠ some .rst) : nextMove s ≠ .rst :=
  fun hm => h (head?_of_nextMove hm (by simp) (by simp))

/-- Settles O54: a step that ends an operation is one of the sequencer's ends, each a `complete`; one without a result finds the operation's own
cleared. -/
theorem everyEndIsComplete : Obligations.EveryEndIsComplete := by
  unfold Obligations.EveryEndIsComplete
  intro s t op h hb hop hrst hs hbt
  have hout := (step_next_outcome h hs).seqOutcome_of_end hb hbt (nextMove_ne_rst hrst)
  cases hout with
  | goesOn _ hgo => cases (hgo.visible.busy.trans hb).symm.trans hbt
  | finishInit hl | finishPstart rate rep hl | finishMeas rep rawT rawH hl | finishRdsn sn hl =>
    cases hl.symm.trans hop
    refine ⟨rfl, complete_quiescent _ _, rfl, ?_⟩
    simp [finishInit, finishPstart, finishMeas, finishRdsn, popInput]
  | fails code hok hill =>
    have hown := h.own_cleared hb op hop
    have hinvalid : ∀ {v : Bool}, v = false → (v = true ↔ code = .ok) := fun hv => by simp [hv, hok]
    refine ⟨rfl, complete_quiescent _ _, rfl, hill, fun _ => ⟨rfl, rfl, rfl, rfl, rfl⟩, fun _ => ⟨rfl, rfl⟩, ?_, ?_⟩
    · rintro rep rfl
      exact ⟨hinvalid hown, fun _ => h.measurement_zero hown⟩
    · rintro rfl
      exact ⟨hinvalid hown, fun _ => h.serial_zero hown⟩

/-! ## The mode, and the settle delay -/

/-- The moves that change `MODE` (44_session_ops.md R238, 10_state.md R39). -/
theorem MoveOutcome.mode_changes {m : Move} {s t : State} (o : MoveOutcome m s (.next t)) (hne : t.mode ≠ s.mode) :
    (m = .rst ∧ t.mode = .uninitialized) ∨
    (s.busy = false ∧ t.busy = true ∧ latched t.lop = some .init ∧ t.mode = .uninitialized) ∨
    (s.busy = true ∧ t.busy = false ∧ t.err = .ok ∧ latched s.lop = some .init ∧ t.mode = .idle) ∨
    (s.busy = true ∧ t.busy = false ∧ t.err = .ok ∧ (∃ rate rep, latched s.lop = some (.pstart rate rep)) ∧ t.mode = .periodicMeasuring) := by
  cases o with
  | waits | ticks | refuses => exact absurd rfl hne
  | resets hr => exact .inl ⟨hr, rfl⟩
  | begins op hb =>
    cases op with
    | init => exact .inr (.inl ⟨hb, rfl, rfl, rfl⟩)
    | rdsn | meas | pstart => exact absurd rfl hne
  | goesOn _ _ _ hvis => exact absurd hvis.mode hne
  | sequences _ hb _ hout =>
    cases hout with
    | goesOn _ hgo => exact absurd hgo.visible.mode hne
    | finishInit hl => exact .inr (.inr (.inl ⟨hb, rfl, rfl, hl, rfl⟩))
    | finishPstart rate rep hl => exact .inr (.inr (.inr ⟨hb, rfl, rfl, ⟨rate, rep, hl⟩, rfl⟩))
    | finishMeas | finishRdsn | fails => exact absurd rfl hne

/-- Settles O55: the list of `MoveOutcome.mode_changes`, and the reset is a pending move. -/
theorem modeChanges : Obligations.ModeChanges := by
  unfold Obligations.ModeChanges
  intro s t h hs hne
  have hlist := (step_next_outcome h hs).mode_changes hne
  exact hlist.imp_left fun ⟨hr, hmode⟩ => ⟨head?_of_nextMove hr (by simp) (by simp), hmode⟩

/-- While the settle delay runs a move other than the block's reset is a tick, or leaves the block as it is (41_command_protocol.md R162). -/
theorem MoveOutcome.settling {m : Move} {s t : State} (o : MoveOutcome m s (.next t)) (h : Inv s) (hp : s.phase = .settle) (hd : 0 < s.dly)
    (hm : m ≠ .rst) : (m = .tick ∧ t = tick s) ∨ ∃ inputs reads, t = { s with inputs := inputs, reads := reads } := by
  have hb : s.busy = true := h.busy_iff_phase.2 (by simp [hp])
  cases o with
  | waits inputs reads => exact .inr ⟨inputs, reads, rfl⟩
  | ticks ht => exact .inl ⟨ht, rfl⟩
  | resets hr => exact absurd hr hm
  | begins _ hidle | refuses hidle => cases hb.symm.trans hidle
  | goesOn _ _ hw | sequences _ _ hw => exact absurd (hw hp) hd.ne'

/-- The settle delay stands between transactions. -/
theorem pos_closed_of_settle {s : State} (h : Inv s) (hp : s.phase = .settle) : s.pos = .closed := by
  have hpath := h.on_path
  simp only [onPath, hp] at hpath
  obtain ⟨_, _, _, hpos, _⟩ := hpath
  exact hpos

/-- Settles O56: a tick takes one from `DLY`, every other move but the reset leaves it. -/
theorem settleDelayIsNotShortened : Obligations.SettleDelayIsNotShortened := by
  unfold Obligations.SettleDelayIsNotShortened
  intro s t h hp hd hs hrst
  obtain ⟨hscl, hsda⟩ := h.lines_released (by rw [pos_closed_of_settle h hp]; rfl)
  obtain ⟨htick, rfl⟩ | ⟨inputs, reads, rfl⟩ :=
    (step_next_outcome h hs).settling (popInput_inv h) hp hd (nextMove_ne_rst hrst)
  · have hmove : s.inputs = [] ∨ s.inputs.head? = some .tick := by
      cases hi : s.inputs with
      | nil => exact .inl rfl
      | cons a rest => rw [nextMove, hi] at htick; exact .inr (congrArg some htick)
    have hdly : (tick (popInput s)).dly + 1 = s.dly := by
      rw [tick_dly, if_pos (show (popInput s).phase = .settle from hp)]
      exact Nat.sub_add_cancel hd
    exact ⟨hp, rfl, hscl, hsda, .inr ⟨hdly, hmove⟩⟩
  · exact ⟨hp, rfl, hscl, hsda, .inl rfl⟩

end Sys2Proof.Machine
end

section
/-! PROOFS. 44_session_ops.md R241, R240: every operation ends, by a count of the steps it has left at most. -/

namespace Sys2Proof.Machine

/-! ## How many steps an operation has left -/

/-- The settle delays of a configuration together, no less than any one of them. -/
def settleBound (c : Config) : Nat := c.tSettleResetMs + c.tSettleSerialMs + c.tSettleMeasMs

/-- The steps left in `P_WRITE`: the load, `S`, three bytes, `P`, the transition. -/
def writeLeft (pos : BusPos) (ret : SubResult) : Nat :=
  match pos with
  | .closed => if ret = .none then 7 else 1
  | .loaded => 6
  | .opened => 5
  | .payload i => 4 - i
  | .failing _ => 2
  | .reading => 0

/-- The steps left in `P_READ`: `S`, the address byte, the bytes still to come, `P`, the transition. -/
def readLeft (s : State) : Nat :=
  match s.pos with
  | .closed => if s.ret = .none then 10 else 1
  | .opened => 9
  | .reading => s.len - s.idx + 2
  | .failing _ => 2
  | .loaded | .payload _ => 0

/-- The steps a running operation has left at most, ticks included, along the path of 44_session_ops.md R240. -/
def stepsLeft (s : State) : Nat :=
  match s.phase with
  | .idle => 0
  | .cfg => 20 + settleBound s.cfg
  | .write => writeLeft s.pos s.ret + 12 + settleBound s.cfg
  | .settle => s.dly + 12
  | .read => readLeft s + 1
  | .decode => 1

section

variable {s : State}

theorem stepsLeft_idle (hp : s.phase = .idle) : stepsLeft s = 0 := by rw [stepsLeft, hp]
theorem stepsLeft_cfg (hp : s.phase = .cfg) : stepsLeft s = 20 + settleBound s.cfg := by rw [stepsLeft, hp]
theorem stepsLeft_write (hp : s.phase = .write) : stepsLeft s = writeLeft s.pos s.ret + 12 + settleBound s.cfg := by rw [stepsLeft, hp]
theorem stepsLeft_settle (hp : s.phase = .settle) : stepsLeft s = s.dly + 12 := by rw [stepsLeft, hp]
theorem stepsLeft_read (hp : s.phase = .read) : stepsLeft s = readLeft s + 1 := by rw [stepsLeft, hp]
theorem stepsLeft_decode (hp : s.phase = .decode) : stepsLeft s = 1 := by rw [stepsLeft, hp]

theorem stepsLeft_pos (hp : s.phase ≠ .idle) : 0 < stepsLeft s := by
  cases hphase : s.phase with
  | idle => exact absurd hphase hp
  | cfg => rw [stepsLeft_cfg hphase]; omega
  | write => rw [stepsLeft_write hphase]; omega
  | settle => rw [stepsLeft_settle hphase]; omega
  | read => rw [stepsLeft_read hphase]; omega
  | decode => rw [stepsLeft_decode hphase]; omega

end

/-- A step after which the operation is over, or has fewer steps left. -/
def Advances (s t : State) : Prop := t.busy = true → stepsLeft t < stepsLeft s

theorem advances_of_end {s t : State} (h : t.busy = false) : Advances s t := fun hb => by cases hb.symm.trans h

theorem advances_in_write {s t : State} (hp : s.phase = .write) (hpt : t.phase = .write) (hc : t.cfg = s.cfg)
    (hlt : writeLeft t.pos t.ret < writeLeft s.pos s.ret) : Advances s t := by
  intro _
  rw [stepsLeft_write hp, stepsLeft_write hpt, hc]
  omega

theorem advances_in_read {s t : State} (hp : s.phase = .read) (hpt : t.phase = .read) (hlt : readLeft t < readLeft s) : Advances s t := by
  intro _
  rw [stepsLeft_read hp, stepsLeft_read hpt]
  omega

theorem afterWrite_advances {s t : State} (hp : s.phase = .write) (hpos : s.pos = .closed) (hret : s.ret = .ok)
    (hs : afterWrite s = .next t) : Advances s t := by
  have hsettle : ∀ ms, ms ≤ settleBound s.cfg → Advances s (enterSettle ms s) := by
    intro ms hms _
    rw [stepsLeft_write hp, stepsLeft_settle (by simp), enterSettle_dly, hpos, hret, writeLeft]
    simp only [reduceCtorEq, if_false]
    omega
  obtain ⟨op, -, hop⟩ := withLatched_next hs
  cases op with
  | init =>
    simp only at hop
    split at hop
    · cases hop; exact advances_of_end rfl
    · cases hop; exact hsettle _ (by unfold settleBound; omega)
  | rdsn => cases hop; exact hsettle _ (by unfold settleBound; omega)
  | meas rep => cases hop; exact hsettle _ (by unfold settleBound; omega)
  | pstart rate rep => cases hop; exact advances_of_end rfl

theorem afterSettle_advances {s t : State} (hp : s.phase = .settle) (hs : afterSettle s = .next t) : Advances s t := by
  obtain ⟨op, -, hop⟩ := withLatched_next hs
  cases op with
  | init => cases hop; exact advances_of_end rfl
  | rdsn | meas =>
    cases hop
    intro _
    rw [stepsLeft_settle hp, stepsLeft_read rfl]
    simp only [readLeft, if_true]
    omega
  | pstart => cases hop

theorem seqStep_write_advances {s t : State} (h : Inv s) (hp : s.phase = .write) (hs : seqStep s = .next t) : Advances s t := by
  have hpath := h.on_path
  simp only [onPath, hp] at hpath
  obtain ⟨op, hop, hon, -⟩ := hpath
  have hsent : ∀ {b p}, seqStep s = .next (atPos (answered p (ackAnswer s)) (sendByte b s)) →
      (∀ a r, writeLeft (answered p a) r < writeLeft s.pos s.ret) → Advances s t := by
    intro b p hs' hlt
    cases hs'.symm.trans hs
    exact advances_in_write hp (by simp [hp]) (by simp) (hlt _ _)
  cases hpos : s.pos with
  | reading => rw [hpos] at hon; exact hon.elim
  | closed =>
    rw [hpos] at hon
    rw [seqStep, hp] at hs
    simp only [seqWrite, hpos] at hs
    obtain hret | hret | hret := hon
    · simp only [hret, withLatched, hop] at hs
      cases hs
      exact advances_in_write hp (by simp) (by simp) (by simp [writeLeft, hpos, hret])
    · simp only [hret] at hs
      exact afterWrite_advances hp hpos hret hs
    · simp only [hret] at hs
      cases hs
      exact advances_of_end rfl
  | loaded =>
    cases (seqStep_loaded hp hpos).symm.trans hs
    exact advances_in_write hp (by simp [hp]) (by simp) (by simp [writeLeft, hpos])
  | opened => exact hsent (seqStep_opened_write hp hpos) fun a r => by cases a <;> simp [hpos, answered, writeLeft]
  | payload i =>
    rw [hpos] at hon
    obtain ⟨hi, -⟩ := hon
    obtain rfl | rfl | rfl : i = 0 ∨ i = 1 ∨ i = 2 := by omega
    · exact hsent (seqStep_payload_zero hp hpos) fun a r => by cases a <;> simp [hpos, answered, writeLeft]
    · exact hsent (seqStep_payload_one hp hpos) fun a r => by cases a <;> simp [hpos, answered, writeLeft]
    · cases (seqStep_payload_two hp hpos).symm.trans hs
      exact advances_in_write hp (by simp [hp]) (by simp) (by simp [writeLeft, hpos])
  | failing a =>
    rw [hpos] at hon
    obtain ⟨ha, -⟩ := hon
    rw [seqStep, hp] at hs
    simp only [seqWrite, hpos] at hs
    cases hs
    cases a with
    | ack => exact absurd rfl ha
    | nack | timeout => exact advances_in_write hp (by simp [endFailed, hp]) (by simp [endFailed]) (by simp [writeLeft, hpos, endFailed])

theorem seqStep_read_advances {s t : State} (h : Inv s) (hp : s.phase = .read) (hs : seqStep s = .next t) : Advances s t := by
  have hpath := h.on_path
  simp only [onPath, hp] at hpath
  obtain ⟨op, n, hop, hn, hon⟩ := hpath
  have h46 := replyLength_four_or_six hn
  unfold onReadPath at hon
  cases hpos : s.pos with
  | loaded | payload i => rw [hpos] at hon; exact hon.elim
  | closed =>
    rw [hpos] at hon
    rw [seqStep, hp] at hs
    simp only [seqRead, hpos] at hs
    obtain hret | hret | hret := hon
    · simp only [hret, withReplyLength, hop, Option.bind_some, hn] at hs
      cases hs
      exact advances_in_read hp (by simp [hp]) (by simp [readLeft, hpos, hret])
    · simp only [hret] at hs
      cases hs
      intro _
      rw [stepsLeft_read hp, stepsLeft_decode rfl, readLeft, hpos]
      simp [hret]
    · simp only [hret] at hs
      cases hs
      exact advances_of_end rfl
  | opened =>
    rw [hpos] at hon
    obtain ⟨-, hlen, hidx⟩ := hon
    cases (seqStep_opened_read hp hpos).symm.trans hs
    refine advances_in_read hp (by simp [hp]) ?_
    cases ackAnswer s <;> simp [readLeft, hpos, answered, hlen, hidx]
    omega
  | reading =>
    rw [seqStep, hp] at hs
    simp only [seqRead, hpos] at hs
    split at hs
    · next hlt =>
      split at hs <;> cases hs <;> refine advances_in_read hp (by simp [hp]) ?_ <;> simp [readLeft, hpos] <;> omega
    · cases hs
      exact advances_in_read hp (by simp [hp]) (by simp [readLeft, hpos])
  | failing a =>
    rw [hpos] at hon
    obtain ⟨ha, -⟩ := hon
    rw [seqStep, hp] at hs
    simp only [seqRead, hpos] at hs
    cases hs
    cases a with
    | ack => exact absurd rfl ha
    | nack | timeout => exact advances_in_read hp (by simp [readFailed, endFailed, hp]) (by simp [readLeft, readFailed, endFailed, hpos])

/-- `P_DECODE` is one step, the operation's last, whether a test fails or none (10_state.md R37). -/
theorem seqDecode_ends {s t : State} (hs : seqDecode s = .next t) : t.busy = false := by
  have hends : ∀ e goOn, (goOn s).busy = false → (unlessError e goOn s).busy = false := fun e goOn h => by
    cases e with
    | none => exact h
    | some code => rfl
  obtain ⟨op, -, hop⟩ := withLatched_next hs
  cases op with
  | init | pstart => cases hop
  | meas => cases hop; exact hends _ _ rfl
  | rdsn =>
    cases hop
    unfold decodeSerial
    split <;> exact hends _ _ rfl

/-- Every step of the sequencer that does not wait for a tick brings its operation nearer to its end. -/
theorem seqStep_advances {s t : State} (h : Inv s) (hb : s.busy = true) (hw : s.phase = .settle → s.dly = 0) (hs : seqStep s = .next t) :
    Advances s t := by
  cases hp : s.phase with
  | idle => exact absurd hp (h.busy_iff_phase.1 hb)
  | write => exact seqStep_write_advances h hp hs
  | read => exact seqStep_read_advances h hp hs
  | cfg =>
    rw [seqStep, hp] at hs
    cases hs
    intro _
    rw [stepsLeft_cfg hp, stepsLeft_write rfl]
    simp [writeLeft]
  | settle =>
    rw [seqStep, hp] at hs
    simp only [hw hp, if_true] at hs
    exact afterSettle_advances hp hs
  | decode =>
    rw [seqStep, hp] at hs
    exact advances_of_end (seqDecode_ends hs)

/-! ## The run to the end -/

/-- With no move pending, a running operation takes a step, and has fewer left after it or is over. -/
theorem step_advances {s : State} (h : Inv s) (hb : s.busy = true) (hi : s.inputs = []) :
    ∃ t, step s = .next t ∧ t.inputs = [] ∧ Advances s t := by
  by_cases hw : s.phase = .settle ∧ 0 < s.dly
  · obtain ⟨hp, hd⟩ := hw
    refine ⟨tick s, step_of_tick hi hp hd, hi, fun _ => ?_⟩
    rw [stepsLeft_settle hp, stepsLeft_settle (by simp [hp]), tick_dly, if_pos hp]
    omega
  · have hw' : s.phase = .settle → s.dly = 0 := fun hp => by_contra fun hd => hw ⟨hp, Nat.pos_of_ne_zero hd⟩
    obtain ⟨t, ht, -⟩ := seqStep_good h hb
    exact ⟨t, (step_of_seq hi hw').trans ht, (seqStep_follows ht).inputs.trans hi, seqStep_advances h hb hw' ht⟩

/-- With no move pending, a running operation is over within the steps it has left. -/
theorem run_to_end (n : Nat) : ∀ {s : State}, Inv s → s.busy = true → s.inputs = [] → stepsLeft s ≤ n →
    ∃ k t, k ≤ n ∧ Host.Core.run core k s = .next t ∧ t.busy = false ∧ t.done = true := by
  induction n with
  | zero =>
    intro s h hb _ hn
    have hpos := stepsLeft_pos (h.busy_iff_phase.1 hb)
    omega
  | succ n ih =>
    intro s h hb hi hn
    obtain ⟨u, hu, hiu, hadv⟩ := step_advances h hb hi
    cases hbu : u.busy with
    | true =>
      have hlt := hadv hbu
      obtain ⟨k, t, hk, hrun, hend⟩ := ih (stepKeepsInvariant s u h hu) hbu hiu (by omega)
      exact ⟨k + 1, t, by omega, (run_next k hu).trans hrun, hend⟩
    | false =>
      have hrst : nextMove s ≠ .rst := nextMove_ne_rst (by simp [hi])
      have hout := (step_next_outcome h hu).seqOutcome_of_end hb hbu hrst
      refine ⟨1, u, by omega, run_one hu, hbu, ?_⟩
      cases hout with
      | goesOn _ hgo => cases (hgo.visible.busy.trans hb).symm.trans hbu
      | _ => rfl

theorem writeLeft_le (pos : BusPos) (ret : SubResult) : writeLeft pos ret ≤ 7 := by
  cases pos with
  | closed => rw [writeLeft]; split <;> decide
  | payload i => rw [writeLeft]; omega
  | loaded | opened | failing a | reading => simp [writeLeft]

/-- Beside the delays at most 20 steps are left: the path of INIT from `P_CFG`, counted as if it read a reply. -/
theorem stepsLeft_le (s : State) (h : Inv s) : stepsLeft s ≤ 20 + s.dly + settleBound s.cfg := by
  cases hp : s.phase with
  | idle => rw [stepsLeft_idle hp]; omega
  | cfg => rw [stepsLeft_cfg hp]; omega
  | settle => rw [stepsLeft_settle hp]; omega
  | decode => rw [stepsLeft_decode hp]; omega
  | write =>
    have hle := writeLeft_le s.pos s.ret
    rw [stepsLeft_write hp]
    omega
  | read =>
    have hpath := h.on_path
    simp only [onPath, hp] at hpath
    obtain ⟨op, n, -, hn, hon⟩ := hpath
    have h46 := replyLength_four_or_six hn
    have hle : readLeft s ≤ 10 := by
      unfold onReadPath at hon
      unfold readLeft
      cases hpos : s.pos <;> simp only [hpos] at hon ⊢
      · split <;> omega
      all_goals omega
    rw [stepsLeft_read hp]
    omega

/-- Settles O51: the run of `run_to_end`, within the bound of `stepsLeft_le`. -/
theorem everyOperationCompletes : Obligations.EveryOperationCompletes := by
  unfold Obligations.EveryOperationCompletes
  intro s h hi
  cases hb : s.busy with
  | false => exact ⟨0, s, Nat.zero_le _, rfl, hb, by simp⟩
  | true =>
    have hle := stepsLeft_le s h
    unfold settleBound at hle
    obtain ⟨k, t, hk, hrun, hbt, hdone⟩ := run_to_end (stepsLeft s) h hb hi le_rfl
    exact ⟨k, t, by omega, hrun, hbt, fun _ => hdone⟩

end Sys2Proof.Machine
end

section
/-! PROOFS. 20_memory.md R68: what every step of the machine keeps, from any state; the block's reset (70_reset_and_hazards.md R292). -/

namespace Sys2Proof.Machine

/-! ## The trace and the parameters -/

theorem startOp_trace_cfg (op : HostOp) (s : State) : (startOp op s).trace = s.trace ∧ (startOp op s).cfg = s.cfg := by
  unfold startOp
  split
  · exact ⟨rfl, rfl⟩
  · split
    · cases op <;> exact ⟨rfl, rfl⟩
    · exact ⟨rfl, rfl⟩

theorem exec_decodeOp_trace_cfg {w : Byte} {s t : State} (h : exec (decodeOp w) s = .next t) : t.trace = s.trace ∧ t.cfg = s.cfg := by
  obtain ⟨op, hop⟩ | hill := exec_decodeOp w s
  · cases hop.symm.trans h
    exact startOp_trace_cfg op s
  · cases hill.symm.trans h
    split <;> exact ⟨rfl, rfl⟩

/-- Whatever the move, the trace has only grown and the parameters are the same. -/
theorem runMove_trace_cfg {m : Move} {s t : State} (h : runMove m s = .next t) : s.trace <+: t.trace ∧ t.cfg = s.cfg := by
  have hsame : ∀ {u : State}, u.trace = s.trace ∧ u.cfg = s.cfg → s.trace <+: u.trace ∧ u.cfg = s.cfg :=
    fun ⟨htr, hc⟩ => ⟨htr ▸ List.prefix_rfl, hc⟩
  cases m with
  | hostRead n =>
    simp only [runMove, hostRead] at h
    split at h <;> cases h
    exact hsame ⟨rfl, rfl⟩
  | hostWrite n v =>
    simp only [runMove, hostWrite] at h
    split at h
    · exact hsame (exec_decodeOp_trace_cfg h)
    · split at h <;> cases h
      exact hsame ⟨rfl, rfl⟩
  | wait =>
    cases h
    split <;> exact hsame ⟨rfl, rfl⟩
  | tick => cases h; exact hsame ⟨rfl, rfl⟩
  | rst =>
    cases h
    refine ⟨?_, rfl⟩
    unfold blockReset
    dsimp only
    split
    · exact List.prefix_append _ _
    · exact List.prefix_rfl
  | seq => exact ⟨(seqStep_follows h).trace, (seqStep_follows h).cfg⟩
  | sub => exact ⟨(subStep_follows h).trace, (subStep_follows h).cfg⟩

/-- Settles O57: a step is a move, and taking the move from the list touches neither. -/
theorem traceOnlyGrows : Obligations.TraceOnlyGrows := by
  unfold Obligations.TraceOnlyGrows
  intro s t hs
  have hgrow := runMove_trace_cfg ((step_eq_runMove s).symm.trans hs)
  exact hgrow

/-! ## Reset -/

/-- A step with a move pending makes that move, at the state without it. -/
theorem step_of_inputs {s : State} {m : Move} {rest : List Move} (h : s.inputs = m :: rest) : step s = runMove m { s with inputs := rest } := by
  simp only [step, h]

/-- Settles O46: the reset state's fields, by evaluation. -/
theorem resetValues : Obligations.ResetValues := by
  unfold Obligations.ResetValues
  decide

/-- Settles O47: the reset state is what the block's reset leaves of itself, quiescent and with an empty trace. -/
theorem resetSatisfiesInvariant : Obligations.ResetSatisfiesInvariant := by
  unfold Obligations.ResetSatisfiesInvariant
  constructor <;> simp [State.reset, onPath, Quiescent, trackTrace, trackOf]

/-- Settles O58: the move is the block's reset, which appends `X` or nothing. -/
theorem resetAbandonsTheOperation : Obligations.ResetAbandonsTheOperation := by
  unfold Obligations.ResetAbandonsTheOperation
  intro s rest hi
  rw [step_of_inputs hi]
  show Host.Outcome.next (blockReset _) = _
  unfold blockReset
  cases isOpen s.pos <;> simp

end Sys2Proof.Machine
end

section
/-! PROOFS. 10_state.md R21 to R23, 30_encoding.md R106: the host's accesses. -/

namespace Sys2Proof.Machine

/-- Settles O4: a write of `OP` is the decoded instruction's. -/
theorem stepRunsTheOperationWord : Obligations.StepRunsTheOperationWord := by
  unfold Obligations.StepRunsTheOperationWord
  intro s rest v hi
  rw [step_of_inputs hi]
  rfl

/-- Settles O5: at its loaded command the sequencer's whole sub-operation is the row that the word in `TXBUF` names. -/
theorem stepRunsTheCommandInTxbuf : Obligations.StepRunsTheCommandInTxbuf := by
  unfold Obligations.StepRunsTheCommandInTxbuf
  intro s rest cmd hi hp hpos hcmd
  rw [step_of_inputs hi]
  simp only [runMove, subStep, hp, hpos, fetchCommand, hcmd]

/-- Settles O8: the four bits stand at their places. -/
theorem statusBits : Obligations.StatusBits := by
  unfold Obligations.StatusBits
  intro s
  unfold statusWord
  cases s.busy <;> cases s.done <;> cases s.mvalid <;> cases s.snvalid <;> rfl

/-- A host read of a register records its value and changes nothing else (10_state.md R21; log 13). -/
theorem step_of_hostRead {s : State} {n : Nat} {v : HostVal} {rest : List Move} (hi : s.inputs = .hostRead n :: rest)
    (hv : readReg { s with inputs := rest } n = some v) : step s = .next { s with inputs := rest, reads := s.reads ++ [(n, v)] } := by
  rw [step_of_inputs hi]
  simp only [runMove, hostRead, hv, observe]

theorem readReg_of_gt {s : State} {n : Nat} (h : 8 < n) : readReg s n = none := by
  obtain ⟨k, rfl⟩ := Nat.exists_eq_add_of_le' (show 9 ≤ n from h)
  rfl

/-- Settles O7: the codes by evaluation, then one case per kind of access. -/
theorem hostRegisterFile : Obligations.HostRegisterFile := by
  unfold Obligations.HostRegisterFile
  refine ⟨by decide, by decide, fun s rest => ⟨fun n v hi hmem => ?_, fun n v hi hlo hhi => ?_, fun n hi hn => ?_, fun n v hi hn => ?_⟩⟩
  · have hv : readReg { s with inputs := rest } n = some v := by
      simp only [List.mem_cons, Prod.mk.injEq, List.not_mem_nil, or_false] at hmem
      obtain ⟨rfl, rfl⟩ | ⟨rfl, rfl⟩ | ⟨rfl, rfl⟩ | ⟨rfl, rfl⟩ | ⟨rfl, rfl⟩ | ⟨rfl, rfl⟩ | ⟨rfl, rfl⟩ | ⟨rfl, rfl⟩ | ⟨rfl, rfl⟩ := hmem <;> rfl
    exact step_of_hostRead hi hv
  · rw [step_of_inputs hi]
    simp only [runMove, hostWrite, Nat.ne_of_gt hlo, if_false, hhi, if_true]
  · rw [step_of_inputs hi]
    simp only [runMove, hostRead, readReg_of_gt hn]
  · rw [step_of_inputs hi]
    simp only [runMove, hostWrite, Nat.ne_of_gt (Nat.zero_lt_of_lt hn), if_false, Nat.not_le.2 hn]

/-- Settles O10: WAIT's two branches. -/
theorem waitPolls : Obligations.WaitPolls := by
  unfold Obligations.WaitPolls
  intro s
  have hwait : exec .wait s = execWait s := rfl
  rw [hwait, execWait]
  exact ⟨fun hd => congrArg Host.Outcome.next (if_pos hd), fun hd => congrArg Host.Outcome.next (if_neg (by simp [hd]))⟩

/-- While `BUSY` a write of `OP` is ignored (10_state.md R22). -/
theorem exec_decodeOp_of_busy {s : State} (w : Byte) (hb : s.busy = true) : exec (decodeOp w) s = .next s := by
  obtain ⟨op, hop⟩ | hill := exec_decodeOp w s
  · rw [hop, startOp, if_pos hb]
  · rw [hill, if_pos hb]

theorem repCode_of_repOfCode {c : BitVec 2} {rep : Rep} (h : repOfCode c = some rep) : repCode rep = c := by
  revert c
  cases rep <;> decide

/-- A word that runs an operation's start step has that operation's latch as its own three fields (30_encoding.md R91, R92). -/
theorem exec_decodeOp_latch (w : Byte) (s : State) :
    (∃ op, exec (decodeOp w) s = .next (startOp op s) ∧ latchOf op = ⟨opcField w, rateField w, repField w⟩) ∨
    exec (decodeOp w) s = .next (if s.busy then s else refuseOp s) := by
  have hopcode : ∀ n, (opcField w).toNat = n → opcField w = BitVec.ofNat 3 n := by rintro n rfl; simp
  unfold decodeOp
  split
  case h_1 h | h_2 h =>
    split
    · next hf => exact .inl ⟨_, rfl, by rw [hopcode _ h, hf.1, hf.2]; rfl⟩
    · exact .inr rfl
  case h_3 h =>
    split
    · next hrate =>
      split
      · next rep hrep =>
        exact .inl ⟨.meas rep, exec_measInstr rep s, by rw [hopcode _ h, hrate, ← repCode_of_repOfCode hrep]; rfl⟩
      · exact .inr rfl
    · exact .inr rfl
  case h_4 h =>
    split
    · next rep hrep => exact .inl ⟨_, rfl, by rw [hopcode _ h, ← repCode_of_repOfCode hrep]; rfl⟩
    · exact .inr rfl
  case h_5 => exact .inr rfl

@[simp] theorem beginOp_lop (op : HostOp) (s : State) : (beginOp op s).lop = latchOf op := by cases op <;> rfl

/-- A write that begins an operation latches the word's fields (10_state.md R22). -/
theorem lop_of_exec_decodeOp {w : Byte} {s t : State} (hb : s.busy = false) (h : exec (decodeOp w) s = .next t) (hbt : t.busy = true) :
    t.lop = ⟨opcField w, rateField w, repField w⟩ := by
  obtain ⟨op, hop, hlatch⟩ | hill := exec_decodeOp_latch w s
  · cases hop.symm.trans h
    by_cases ha : admitted op s = true
    · rw [startOp_of_admitted hb ha, beginOp_lop, hlatch]
    · rw [startOp_of_not_admitted hb ha] at hbt
      cases hbt
  · rw [hb] at hill
    cases hill.symm.trans h
    cases hbt

/-- Settles O9: an ignored write, a latched one, and the constant read. -/
theorem operationRegister : Obligations.OperationRegister := by
  unfold Obligations.OperationRegister
  intro s rest v
  refine ⟨fun hi hb => ?_, fun hi hb t hs hbt => ?_, fun hi => step_of_hostRead hi rfl⟩
  · exact (stepRunsTheOperationWord s rest v hi).trans (exec_decodeOp_of_busy _ hb)
  · exact lop_of_exec_decodeOp (s := { s with inputs := rest }) hb ((stepRunsTheOperationWord s rest v hi).symm.trans hs) hbt

end Sys2Proof.Machine
end

section
/-! PROOFS. 40_bus_transport.md R133 to R135, 41_command_protocol.md R160: the WRITE and READ transactions on a script, and SEND_CMD over them. -/

namespace Sys2Proof.Machine

/-! ## WRITE -/

/-- The whole WRITE, every byte acknowledged (40_bus_transport.md R133). -/
theorem writeTransaction_acked (s : State) (addr : Addr7) (bytes : List Byte) {rest : List Ack}
    (hacks : s.acks = List.replicate (bytes.length + 1) .ack ++ rest) :
    writeTransaction addr bytes s = { s with
      trace := s.trace ++ .start :: (addrByteW addr :: bytes).map (.sent · .ack) ++ [.stop], acks := rest, ret := .ok,
      tmo := Config.busTimeoutMs, sclOut := .released, sdaOut := .released, pos := .closed, fresh := s.fresh + 2 + 3 * (bytes.length + 1) } := by
  have htmo : (busStart s).tmo ≠ 0 := by simp [Config.busTimeoutMs]
  rw [writeTransaction, sendAll_acked _ (busStart s) rest htmo (by simpa using hacks)]
  simp [busStart, drive, emit]

/-- The WRITE up to its first answer other than `ACK` (40_bus_transport.md R133, R135). -/
theorem writeTransaction_failed (s : State) (addr : Addr7) {bytes before after : List Byte} {b : Byte} {a : Ack} {rest : List Ack}
    (hbytes : addrByteW addr :: bytes = before ++ b :: after) (ha : a ≠ .ack)
    (hacks : s.acks = List.replicate before.length .ack ++ a :: rest) :
    writeTransaction addr bytes s = { s with
      trace := s.trace ++ .start :: before.map (.sent · .ack) ++ .sent b a :: endSymbol a, acks := rest, ret := .busError,
      tmo := Config.busTimeoutMs, sclOut := .released, sdaOut := .released, pos := .closed,
      fresh := s.fresh + 2 + 3 * (before.length + 1) } := by
  have htmo : (busStart s).tmo ≠ 0 := by simp [Config.busTimeoutMs]
  rw [writeTransaction, hbytes, sendAll_failed before (busStart s) b after a rest ha htmo (by simpa using hacks)]
  simp [busStart, drive, emit]

/-- WRITE of two bytes runs the transaction (20_memory.md R64, 92_eei_decisions.md D32). -/
theorem exec_write_of_length (s : State) (addr : Addr7) {bytes : List Byte} (h : bytes.length = 2) :
    exec (.write addr bytes) s = .next (writeTransaction addr bytes s) := if_pos h

/-- Settles O16: the acknowledged transaction is its own witness. -/
theorem writeAcknowledged : Obligations.WriteAcknowledged := by
  unfold Obligations.WriteAcknowledged
  intro s addr bytes rest _ hacks
  exact ⟨_, exec_write_of_length s addr, rfl, by rw [writeTransaction_acked s addr bytes hacks]; rfl⟩

/-- Settles O17: the failed transaction is its own witness. -/
theorem writeFailsAtFirstBadAnswer : Obligations.WriteFailsAtFirstBadAnswer := by
  unfold Obligations.WriteFailsAtFirstBadAnswer
  intro s addr bytes before after b a rest _ hbytes ha hacks
  exact ⟨_, exec_write_of_length s addr, rfl, by rw [writeTransaction_failed s addr hbytes ha hacks]; rfl⟩

/-! ## READ -/

/-- The address answered `NACK` or `TIMEOUT` ends the READ (40_bus_transport.md R134, R135). -/
theorem readTransaction_refused (s : State) (addr : Addr7) (len : Nat) {a : Ack} {ackRest : List Ack} (ha : a ≠ .ack)
    (hacks : s.acks = a :: ackRest) :
    readTransaction addr len s = { s with
      trace := s.trace ++ .start :: .sent (addrByteR addr) a :: endSymbol a, acks := ackRest, ret := .busError,
      rxbuf := freeRx (s.fresh + 5), len := len, idx := 0, tmo := Config.busTimeoutMs, sclOut := .released, sdaOut := .released, pos := .closed,
      fresh := s.fresh + 11 } := by
  have htmo : (readStart len s).tmo ≠ 0 := by simp [Config.busTimeoutMs]
  have hans : ackAnswer (readStart len s) = a := ackAnswer_of_script htmo (by simpa using hacks)
  rw [readTransaction, hans]
  cases a with
  | ack => exact absurd rfl ha
  | nack | timeout =>
    simp [readFailed, returning, discardRx, endFailed, busStop, busAbort, release, emit, sendByte, ackAnswer, drive, ackTaken, readStart, busStart,
      Config.busTimeoutMs, hacks, endSymbol]

/-- A byte that times out ends the READ, whatever bytes came before (40_bus_transport.md R134). -/
theorem readTransaction_timeout (s : State) (addr : Addr7) {len : Nat} {vs : List Byte} {ackRest : List Ack} {byteRest : List PeerByte}
    (hlen : vs.length < len) (hacks : s.acks = .ack :: ackRest) (hbytes : s.bytes = vs.map .byte ++ .timeout :: byteRest) :
    readTransaction addr len s = { s with
      trace := s.trace ++ .start :: .sent (addrByteR addr) .ack :: vs.map .receivedAck ++ [.receiveTimeout, .abort],
      acks := ackRest, bytes := byteRest, ret := .busError, rxbuf := freeRx (s.fresh + 5 + 3 * (vs.length + 1)), len := len, idx := vs.length,
      tmo := Config.busTimeoutMs, sclOut := .released, sdaOut := .released, pos := .closed,
      fresh := s.fresh + 5 + 3 * (vs.length + 1) + 6 } := by
  have htmo : (readStart len s).tmo ≠ 0 := by simp [Config.busTimeoutMs]
  have hans : ackAnswer (readStart len s) = .ack := ackAnswer_of_script htmo (by simpa using hacks)
  rw [readTransaction_acked hans, receiveAll_timeout vs _ len byteRest (by simpa using htmo) hlen (by simp) (by simpa using hbytes)]
  simp [sendByte, ackAnswer, readStart, busStart, drive, emit, ackTaken, Config.busTimeoutMs, hacks]

/-- Past the bytes it stores `storeAll` leaves `RXBUF` alone. -/
theorem rxGet_storeAll_past {vs : List Byte} (r : RxBuf) (h : vs.length ≤ 6) {i : Nat} (hi : vs.length ≤ i) :
    rxGet (storeAll vs 0 r) i = rxGet r i := by
  rw [rxGet_storeAll vs 0 r (by omega), if_neg (by omega)]

/-- Settles O18: the transaction stores the bytes from `RXBUF[0]` on. -/
theorem readReceivesAllBytes : Obligations.ReadReceivesAllBytes := by
  unfold Obligations.ReadReceivesAllBytes
  intro s addr vs ackRest byteRest _ hlen hacks hbytes
  refine ⟨_, exec_read_of_length s addr, rfl, fun i hi => ?_, fun i hi => ?_, ?_⟩ <;> rw [readTransaction_bytes s addr hacks hbytes]
  · exact rxGet_storeAll_zero s.rxbuf hlen hi
  · exact rxGet_storeAll_past s.rxbuf hlen hi
  · rfl

/-- Settles O19: the address refused, or a byte timed out. -/
theorem readFails : Obligations.ReadFails := by
  unfold Obligations.ReadFails
  intro s addr len _ _
  constructor
  · intro a ackRest ha hacks
    exact ⟨_, exec_read_of_length s addr, rfl, by rw [readTransaction_refused s addr len ha hacks]; rfl⟩
  · intro vs ackRest byteRest hlen hacks hbytes
    exact ⟨_, exec_read_of_length s addr, rfl, by rw [readTransaction_timeout s addr hlen hacks hbytes]; rfl⟩

/-- Settles O20: each length test fails. -/
theorem badLengthsRefused : Obligations.BadLengthsRefused := by
  unfold Obligations.BadLengthsRefused
  intro s addr
  refine ⟨fun bytes h => if_neg h, fun len h4 h6 => ⟨if_neg ?_, if_neg ?_⟩⟩ <;> exact not_or.2 ⟨h4, h6⟩

/-! ## SEND_CMD -/

theorem txOf_append (hi lo : Byte) : txOf (hi ++ lo) = ⟨hi, lo⟩ := by simp [txOf]

theorem commandSymbols_append (dev : Addr7) (hi lo : Byte) :
    commandSymbols dev (hi ++ lo) = [.start, .sent (addrByteW dev) .ack, .sent hi .ack, .sent lo .ack, .stop] := by
  show [BusSym.start, _, .sent (wordHigh (hi ++ lo)) .ack, .sent (wordLow (hi ++ lo)) .ack, _] = _
  rw [high_of_append, low_of_append]

/-- SEND_CMD is one WRITE of the command's two bytes (41_command_protocol.md R160). -/
theorem sendCommand_eq (cmd : Command) (s : State) :
    sendCommand cmd s = writeTransaction s.cfg.devAddr (commandBytes s.cfg cmd) (loadCommand cmd s) := rfl

/-- SEND_CMD with its three bytes acknowledged. -/
theorem sendCommand_acked (cmd : Command) (s : State) {rest : List Ack} (hacks : s.acks = .ack :: .ack :: .ack :: rest) :
    sendCommand cmd s = { s with
      txbuf := txOf (commandWord s.cfg cmd), phase := .write, ret := .ok, trace := s.trace ++ commandSymbols s.cfg.devAddr (commandWord s.cfg cmd),
      acks := rest, tmo := Config.busTimeoutMs, sclOut := .released, sdaOut := .released, pos := .closed, fresh := s.fresh + 11 } := by
  rw [sendCommand_eq, writeTransaction_acked _ _ _ (by simpa [commandBytes] using hacks)]
  simp [loadCommand, commandSymbols, commandBytes, wordHigh, wordLow]

/-- SEND_CMD up to its first answer other than `ACK`. -/
theorem sendCommand_failed (cmd : Command) (s : State) {before after : List Byte} {b : Byte} {a : Ack} {rest : List Ack}
    (hbytes : addrByteW s.cfg.devAddr :: commandBytes s.cfg cmd = before ++ b :: after) (ha : a ≠ .ack)
    (hacks : s.acks = List.replicate before.length .ack ++ a :: rest) :
    sendCommand cmd s = { s with
      txbuf := txOf (commandWord s.cfg cmd), phase := .write, ret := .busError,
      trace := s.trace ++ .start :: before.map (.sent · .ack) ++ .sent b a :: endSymbol a, acks := rest,
      tmo := Config.busTimeoutMs, sclOut := .released, sdaOut := .released, pos := .closed,
      fresh := s.fresh + 2 + 3 * (before.length + 1) } := by
  rw [sendCommand_eq, writeTransaction_failed _ _ hbytes ha (by simpa using hacks)]
  simp [loadCommand]

/-- Settles O23: the acknowledged command, and a failure after no byte, one and two. -/
theorem sendCommandWritesItsWord : Obligations.SendCommandWritesItsWord := by
  unfold Obligations.SendCommandWritesItsWord
  intro s cmd hi lo hword
  have hbytes : commandBytes s.cfg cmd = [hi, lo] := by simp [commandBytes, hword]
  have hfail := fun {before after : List Byte} {b : Byte} {a : Ack} {rest : List Ack} =>
    sendCommand_failed cmd s (before := before) (after := after) (b := b) (a := a) (rest := rest)
  rw [hbytes, hword, txOf_append] at hfail
  refine ⟨fun rest hacks => ⟨_, rfl, ?_⟩, fun a rest ha hacks => ⟨_, rfl, ?_⟩, fun a rest ha hacks => ⟨_, rfl, ?_⟩,
    fun a rest ha hacks => ⟨_, rfl, ?_⟩⟩
  · rw [sendCommand_acked cmd s hacks, hword, txOf_append, commandSymbols_append]
    simp [Config.busTimeoutMs]
  · rw [hfail (before := []) rfl ha hacks]
    simp [Config.busTimeoutMs]
  · rw [hfail (before := [_]) rfl ha hacks]
    simp [Config.busTimeoutMs]
  · rw [hfail (before := [_, _]) rfl ha hacks]
    simp [Config.busTimeoutMs]

/-- The table's rows are SEND_CMD of the table's commands (30_encoding.md R98). -/
theorem commandRows_eq (c : Config) : commandRows c = tableCommands.map fun cmd => (cmd.toInstr, commandWord c cmd) := rfl

/-- Settles O24: a row is SEND_CMD of its command. -/
theorem commandRowsSendTheirWords : Obligations.CommandRowsSendTheirWords := by
  unfold Obligations.CommandRowsSendTheirWords
  intro s i w rest hrow hacks
  rw [commandRows_eq, List.mem_map] at hrow
  obtain ⟨cmd, -, hcmd⟩ := hrow
  cases hcmd
  exact ⟨_, exec_toInstr cmd s, by rw [sendCommand_acked cmd s hacks]; rfl⟩

end Sys2Proof.Machine
end

section
/-! PROOFS. 44_session_ops.md R231, R237: the start steps, as complete lists of what they change. -/

namespace Sys2Proof.Machine

/-- Settles O11: INIT is always admitted. -/
theorem initStarts : Obligations.InitStarts := by
  unfold Obligations.InitStarts
  intro s hb
  exact ⟨_, congrArg Host.Outcome.next (startOp_of_admitted hb rfl), rfl⟩

/-- Settles O12: RDSN is always admitted. -/
theorem rdsnStarts : Obligations.RdsnStarts := by
  unfold Obligations.RdsnStarts
  intro s hb
  exact ⟨_, congrArg Host.Outcome.next (startOp_of_admitted hb rfl), rfl⟩

/-- Settles O13: MEAS is always admitted, in each of its three rows. -/
theorem measStarts : Obligations.MeasStarts := by
  unfold Obligations.MeasStarts
  intro s i rep hrow hb
  simp only [List.mem_cons, Prod.mk.injEq, List.not_mem_nil, or_false] at hrow
  obtain ⟨rfl, rfl⟩ | ⟨rfl, rfl⟩ | ⟨rfl, rfl⟩ := hrow <;>
    exact ⟨_, congrArg Host.Outcome.next (startOp_of_admitted hb rfl), rfl⟩

theorem admitted_pstart_iff (rate : BitVec 3) (rep : Rep) (s : State) :
    admitted (.pstart rate rep) s = true ↔ s.cfg.hasPeriodicStart = true ∧ rate.toNat < s.cfg.nRates ∧ s.mode ≠ .uninitialized := by
  simp [admitted, and_assoc]

/-- Settles O14: PSTART begins exactly if it is admitted. -/
theorem pstartStarts : Obligations.PstartStarts := by
  unfold Obligations.PstartStarts
  intro s rate rep r hrow hq
  have hrep : repCode rep = r := by
    simp only [List.mem_cons, Prod.mk.injEq, List.not_mem_nil, or_false] at hrow
    obtain ⟨rfl, rfl⟩ | ⟨rfl, rfl⟩ | ⟨rfl, rfl⟩ := hrow <;> rfl
  have hb : s.busy = false := hq.1
  constructor
  · intro hopt hrate hmode
    refine ⟨_, congrArg Host.Outcome.next (startOp_of_admitted hb ((admitted_pstart_iff rate rep s).2 ⟨hopt, hrate, hmode⟩)), ?_⟩
    obtain ⟨-, -, -, -, -, -, hpos, hret⟩ := hq
    simp only [beginOp, clearOwn, latchOf, firstPhase, clearEnded, discardRx, hrep, hpos, hret]
  · intro hnot
    have hna : ¬ admitted (.pstart rate rep) s = true := by
      rw [admitted_pstart_iff]
      rintro ⟨hopt, hrate, hmode⟩
      obtain h | h | h := hnot
      · cases hopt.symm.trans h
      · omega
      · exact hmode h
    rw [exec_pstart, startOp_of_not_admitted hb hna, refuseOp_of_quiescent hq]

/-- Settles O15: the refusal in a quiescent block. -/
theorem illegalWordRefused : Obligations.IllegalWordRefused := by
  unfold Obligations.IllegalWordRefused
  intro s w hq
  rw [exec_illegal_of_not_busy w hq.1, refuseOp_of_quiescent hq]

end Sys2Proof.Machine
end

section
/-! PROOFS. The single steps: the address byte, the ticks and the delays, and where `step` fetches an instruction. -/

namespace Sys2Proof.Machine

/-! ## Sub-operations that answer at once -/

/-- Settles O33: the test is that of `tOk_iff`; the bounds in exact terms by arithmetic, the words around them by evaluation. -/
theorem temperatureBounds : Obligations.TemperatureBounds := by
  unfold Obligations.TemperatureBounds
  refine ⟨fun s rawT => ?_, fun rawT => by omega, by decide⟩
  have htok : tOk rawT = decide (9363 ≤ rawT.toNat ∧ rawT.toNat ≤ 63662) := by rw [Bool.eq_iff_iff, decide_eq_true_iff, tOk_iff]
  rw [← htok]
  rfl

/-- Settles O34: the test can never fail. -/
theorem humidityAlwaysInBounds : Obligations.HumidityAlwaysInBounds := by
  unfold Obligations.HumidityAlwaysInBounds
  intro s rawH
  rw [← hOk_true rawH]
  rfl

/-! ## The bytes of a transaction -/

theorem answered_eq_ite (p : BusPos) (a : Ack) : answered p a = if a = .ack then p else .failing a := by cases a <;> rfl

/-- A byte goes out and is answered (40_bus_transport.md R133, R135). -/
theorem sendByte_eq (b : Byte) (s : State) :
    sendByte b s = { s with
      trace := s.trace ++ [.sent b (ackAnswer s)], acks := if s.tmo = 0 then s.acks else s.acks.tail, sclOut := (sendByte b s).sclOut,
      sdaOut := (sendByte b s).sdaOut, fresh := (sendByte b s).fresh } := rfl

theorem exec_addrbW (addr : Addr7) (s : State) :
    exec (.addrbW addr) s = .next (atPos (answered (.payload 0) (ackAnswer s)) (sendByte (addrByteW addr) s)) := rfl

theorem exec_addrbR (addr : Addr7) (s : State) :
    exec (.addrbR addr) s = .next (atPos (answered .reading (ackAnswer s)) (sendByte (addrByteR addr) s)) := rfl

/-- With `TMO` run out a question is answered `TIMEOUT` (40_bus_transport.md R136). -/
theorem ackAnswer_of_tmo {s : State} (h : s.tmo = 0) : ackAnswer s = .timeout := if_pos h

theorem byteAnswer_of_tmo {s : State} (h : s.tmo = 0) : byteAnswer s = .timeout := if_pos h

/-- A byte sent while `TMO` has not run out takes the script's answer. -/
theorem sent_of_script {s : State} {b : Byte} {p : BusPos} {a : Ack} {rest : List Ack} (ht : s.tmo ≠ 0) (h : s.acks = a :: rest) :
    atPos (answered p (ackAnswer s)) (sendByte b s) = { s with
      trace := s.trace ++ [.sent b a], acks := rest, pos := if a = .ack then p else .failing a,
      sclOut := (sendByte b s).sclOut, sdaOut := (sendByte b s).sdaOut, fresh := (sendByte b s).fresh } := by
  rw [answered_eq_ite, ackAnswer_of_script ht h, sendByte_eq, ackAnswer_of_script ht h]
  simp [atPos, ht, h]

/-- A byte sent once `TMO` is 0 is answered `TIMEOUT`, and the script keeps its answer (log 14). -/
theorem sent_of_tmo {s : State} {b : Byte} {p : BusPos} (ht : s.tmo = 0) :
    atPos (answered p (ackAnswer s)) (sendByte b s) = { s with
      trace := s.trace ++ [.sent b .timeout], pos := .failing .timeout,
      sclOut := (sendByte b s).sclOut, sdaOut := (sendByte b s).sdaOut, fresh := (sendByte b s).fresh } := by
  rw [ackAnswer_of_tmo ht, sendByte_eq, ackAnswer_of_tmo ht]
  simp [atPos, answered, ht]

/-- Settles O22: the two directions, each with the script's answer and with `TMO` run out. -/
theorem addressByteIsSent : Obligations.AddressByteIsSent := by
  unfold Obligations.AddressByteIsSent
  intro s addr a rest hacks
  refine ⟨fun ht => ⟨⟨_, exec_addrbW addr s, ?_⟩, ⟨_, exec_addrbR addr s, ?_⟩⟩, fun ht => ⟨⟨_, exec_addrbW addr s, ?_⟩, ⟨_, exec_addrbR addr s, ?_⟩⟩⟩
  · exact sent_of_script ht hacks
  · exact sent_of_script ht hacks
  · exact sent_of_tmo ht
  · exact sent_of_tmo ht

/-- Settles O59: a tick, and the byte due in a WRITE and in a READ once `TMO` is 0. -/
theorem transactionTimesOut : Obligations.TransactionTimesOut := by
  unfold Obligations.TransactionTimesOut
  intro s rest
  refine ⟨fun hi hopen hp => ?_, fun b hi ht hp hb => ?_, fun hi ht hp hpos hlt => ?_⟩
  · rw [step_of_inputs hi]
    simp only [runMove, tick, hp, hopen, if_true, if_false]
  · rw [step_of_inputs hi]
    obtain ⟨hpos, rfl⟩ | ⟨hpos, rfl⟩ := hb
    · exact ⟨_, seqStep_payload_zero (s := { s with inputs := rest }) hp hpos, sent_of_tmo ht⟩
    · exact ⟨_, seqStep_payload_one (s := { s with inputs := rest }) hp hpos, sent_of_tmo ht⟩
  · rw [step_of_inputs hi]
    refine ⟨_, seqStep_reading_timeout (s := { s with inputs := rest }) hp hpos hlt (byteAnswer_of_tmo ht), ?_⟩
    simp [atPos, receiveTimeout, drive, emit, byteTaken, ht]

/-! ## The settle delay -/

/-- Settles O26: the entry, the tick and the wait. -/
theorem delayCountsTicks : Obligations.DelayCountsTicks := by
  unfold Obligations.DelayCountsTicks
  intro s ms
  refine ⟨rfl, fun rest hp hopen hi => ?_, fun rest hp hd hi => ?_⟩
  · rw [step_of_inputs hi]
    simp only [runMove, tick, hp, hopen, if_true, Bool.false_eq_true, if_false]
  · rw [step_of_inputs hi]
    exact seqStep_of_waiting (s := { s with inputs := rest }) hp hd.ne'

/-- The sequencer's step, whether its move is pending or the agents' own (log 7). -/
theorem step_of_seq_or_nil {s : State} {rest : List Move} (hi : (s.inputs = [] ∧ rest = []) ∨ s.inputs = .seq :: rest)
    (hw : s.phase = .settle → s.dly = 0) : step s = seqStep { s with inputs := rest } := by
  obtain ⟨hnil, rfl⟩ | hseq := hi
  · rw [step_of_seq hnil hw, ← hnil]
  · rw [step_of_inputs hseq]
    rfl

/-- Settles O60: the step after an acknowledged command, and the step after the delay, by the operation. -/
theorem settleDelayFollowsItsCommand : Obligations.SettleDelayFollowsItsCommand := by
  unfold Obligations.SettleDelayFollowsItsCommand
  refine ⟨by decide, fun s rest op hi hop => ⟨fun hp hpos hret => ?_, fun hp hd => ?_⟩⟩
  · rw [step_of_seq_or_nil hi (by simp [hp])]
    simp only [seqStep, hp, seqWrite, hpos, hret, afterWrite, withLatched, hop]
    refine ⟨?_, ?_, ?_, ?_, ?_⟩
    · rintro rfl; rfl
    · rintro rep rfl; rfl
    · rintro rfl hz; exact if_neg hz
    · rintro rfl hz; exact if_pos hz
    · rintro rate rep rfl; rfl
  · rw [step_of_seq_or_nil hi fun _ => hd]
    simp only [seqStep, hp, hd, if_true, afterSettle, withLatched, hop]
    constructor
    · rintro (rfl | ⟨rep, rfl⟩) <;> rfl
    · rintro rfl; rfl

/-! ## The fetch of a table word -/

/-- An 8-bit word in a host's wider write (log 12). -/
theorem setWidth_ofNat_mod (w : Nat) : (BitVec.ofNat 32 (w % 256)).setWidth 8 = BitVec.ofNat 8 w := by
  apply BitVec.eq_of_toNat_eq
  simp

/-- The state of a fetched instruction: it differs from the state before in the sequencer's place, `TXBUF`, `TMO` and `DEV_ADDR` at most. -/
def FetchedAt (s t : State) : Prop :=
  t = { s with
    cfg := { s.cfg with devAddr := t.cfg.devAddr }, busy := t.busy, phase := t.phase, txbuf := t.txbuf, tmo := t.tmo, pos := t.pos }

/-- A word that is no operation's is fetched as an address byte (log 16). -/
theorem step_atAddressByte (b : Byte) (s : State) : ∃ t, step (atAddressByte b s) = exec (decodeAddrb b) t ∧ FetchedAt s t := by
  refine ⟨{ atAddressByte b s with inputs := s.inputs }, ?_, rfl⟩
  rw [step_of_inputs (s := atAddressByte b s) rfl, decodeAddrb]
  by_cases hdir : b.extractLsb' 0 1 = 0#1 <;> simp only [runMove, atAddressByte, seqStep, hdir, if_true, if_false] <;> rfl

/-- A command word in `TXBUF` is fetched as the row that the state's own table names (log 17). -/
theorem step_atCommand {w : W16} {s : State} {cmd : Command} (h : decodeCommand s.cfg w = some cmd) :
    ∃ t, step (atCommand w s) = exec cmd.toInstr t ∧ FetchedAt s t := by
  refine ⟨{ atCommand w s with inputs := s.inputs }, ?_, rfl⟩
  refine stepRunsTheCommandInTxbuf (atCommand w s) s.inputs cmd rfl rfl rfl ?_
  rw [show (atCommand w s).txbuf = txOf w from rfl, txWord_txOf]
  exact h

theorem format_toInstr_ne_opw (cmd : Command) : cmd.toInstr.format ≠ .opw := by
  cases cmd with
  | softReset | readSerial | fetch => decide
  | ssStretch rep | ssNostretch rep => cases rep <;> decide
  | periodic rep rate => revert rate; cases rep <;> decide

theorem format_decodeAddrb_ne_opw (b : Byte) : (decodeAddrb b).format ≠ .opw := by
  unfold decodeAddrb
  split <;> simp [Instr.format]

/-- The command of a 16-bit table word (30_encoding.md R97). -/
theorem decodeTableWord_sixteen {w : Nat} {i : Instr} (h : decodeTableWord 16 w = some i) :
    ∃ cmd, decodeCommand Config.default (BitVec.ofNat 16 w) = some cmd ∧ i = cmd.toInstr := by
  simp only [decodeTableWord, decode, high_append_low] at h
  split at h
  · next cmd hcmd => cases h; exact ⟨cmd, hcmd, rfl⟩
  · cases h

/-- Settles O6: an operation word is the host's write, an address byte and a command word are the sequencer's next step. -/
theorem fetchedTableWordRuns : Obligations.FetchedTableWordRuns := by
  unfold Obligations.FetchedTableWordRuns
  intro s nbits w i hcfg hdec
  unfold State.withFetchWord
  split
  · simp only [decodeTableWord] at hdec
    split
    · next b hop =>
      rw [hop] at hdec
      cases hdec
      obtain ⟨t, ht, hframe⟩ := step_atAddressByte b s
      exact ⟨t, ht, fun hf => absurd hf (format_decodeAddrb_ne_opw b), hframe⟩
    · next hop =>
      refine ⟨s, ?_, fun _ => rfl, rfl⟩
      rw [stepRunsTheOperationWord _ s.inputs _ rfl, setWidth_ofNat_mod]
      split at hdec
      · next b hill => exact absurd hill (hop b)
      · cases hdec; rfl
  · obtain ⟨cmd, hcmd, rfl⟩ := decodeTableWord_sixteen hdec
    obtain ⟨t, ht, hframe⟩ := step_atCommand (hcfg ▸ hcmd)
    exact ⟨t, ht, fun hf => absurd hf (format_toInstr_ne_opw cmd), hframe⟩
  · next h8 h16 =>
    unfold decodeTableWord at hdec
    split at hdec
    · exact absurd rfl h8
    · exact absurd rfl h16
    · cases hdec

end Sys2Proof.Machine
end

section
/-! PROOFS. 42_checksum.md R180, R186: the byte-wise CRC is the long division by 0x131, and it is linear over exclusive-or. -/

namespace Sys2Proof.Machine

/-! ## The division -/

/-- A round as arithmetic on nine bits: the shift, and 0x131 where the bit shifted out is 1 (42_checksum.md R180). -/
theorem crcRound_toNat (r : Byte) : (crcRound r).toNat = if r.toNat.testBit 7 then (r.toNat <<< 1) ^^^ 0x131 else r.toNat <<< 1 := by
  revert r
  decide +kernel

/-- One step of the division is one round of the remainder, over whatever stands below it. -/
theorem remainder131_succ (k : Nat) (r : Byte) {z : Nat} (hz : z < 2 ^ (k + 8)) :
    remainder131 (k + 1) ((r.toNat <<< (k + 1)) ^^^ z) = remainder131 k (((crcRound r).toNat <<< k) ^^^ z) := by
  have hbit : ((r.toNat <<< (k + 1)) ^^^ z).testBit (k + 8) = r.toNat.testBit 7 := by
    rw [Nat.testBit_xor, Nat.testBit_lt_two_pow hz, Nat.testBit_shiftLeft]
    simp [show k + 8 - (k + 1) = 7 by omega]
  have hshift : r.toNat <<< (k + 1) = (r.toNat <<< 1) <<< k := by rw [Nat.add_comm, Nat.shiftLeft_add]
  rw [remainder131, hbit, crcRound_toNat, hshift]
  cases r.toNat.testBit 7 with
  | true => simp only [if_true, Nat.shiftLeft_xor_distrib, Nat.xor_assoc, Nat.xor_comm]
  | false => rfl

/-- `n` steps of the division are `n` rounds. -/
theorem remainder131_add (n k : Nat) : ∀ (r : Byte) {z : Nat}, z < 2 ^ (k + 8) →
    remainder131 (n + k) ((r.toNat <<< (n + k)) ^^^ z) = remainder131 k (((crcRounds n r).toNat <<< k) ^^^ z) := by
  induction n with
  | zero => intro r z _; rw [Nat.zero_add, crcRounds]
  | succ n ih =>
    intro r z hz
    have hz' : z < 2 ^ (n + k + 8) := hz.trans_le (Nat.pow_le_pow_right (by decide) (by omega))
    rw [Nat.add_right_comm, remainder131_succ _ _ hz', ih _ hz, crcRounds]

/-- CRC8 divides the two bytes as one message of 24 bits, the seed combined with the first (42_checksum.md R180). -/
theorem crc8_toNat (b0 b1 seed : Byte) :
    (crc8 b0 b1 seed).toNat = remainder131 16 (((b0.toNat ^^^ seed.toNat) <<< 16) ^^^ (b1.toNat <<< 8)) := by
  have hz : b1.toNat <<< 8 < 2 ^ (8 + 8) := by
    have := b1.isLt
    rw [Nat.shiftLeft_eq]
    omega
  have hfirst := remainder131_add 8 8 (seed ^^^ b0) hz
  have hsecond := remainder131_add 8 0 (crcRounds 8 (seed ^^^ b0) ^^^ b1) (z := 0) (by decide)
  rw [BitVec.toNat_xor, Nat.xor_comm seed.toNat] at hfirst
  rw [BitVec.toNat_xor, Nat.shiftLeft_xor_distrib, Nat.xor_zero, Nat.xor_zero, Nat.shiftLeft_zero, remainder131] at hsecond
  rw [hfirst]
  exact hsecond.symm

/-- Settles O27: the division, and the rule's corner cases by evaluation. -/
theorem crcIsTheRemainder : Obligations.CrcIsTheRemainder := by
  unfold Obligations.CrcIsTheRemainder
  exact ⟨fun s b0 b1 seed => ⟨crc8 b0 b1 seed, rfl, crc8_toNat b0 b1 seed⟩, by decide +kernel⟩

/-! ## Linearity -/

theorem crcRound_xor (a b : Byte) : crcRound (a ^^^ b) = crcRound a ^^^ crcRound b := by
  have hpair : ∀ x y p : Byte, (x ^^^ p) ^^^ (y ^^^ p) = x ^^^ y := fun x y p => by
    rw [BitVec.xor_comm y p, BitVec.xor_assoc, ← BitVec.xor_assoc p, BitVec.xor_self, BitVec.zero_xor]
  simp only [crcRound, BitVec.msb_xor, BitVec.shiftLeft_xor_distrib]
  cases a.msb <;> cases b.msb <;> simp [hpair] <;> ac_rfl

theorem crcRounds_xor (n : Nat) : ∀ a b : Byte, crcRounds n (a ^^^ b) = crcRounds n a ^^^ crcRounds n b := by
  induction n with
  | zero => intro a b; rfl
  | succ n ih => intro a b; simp only [crcRounds, crcRound_xor, ih]

theorem crcByte_xor (r r' b b' : Byte) : crcByte (r ^^^ r') (b ^^^ b') = crcByte r b ^^^ crcByte r' b' := by
  rw [crcByte, crcByte, crcByte, ← crcRounds_xor]
  congr 1
  ac_rfl

/-- CRC8 is linear in its data and its seed together (42_checksum.md R186). -/
theorem crc8_xor (b0 b1 seed e0 e1 seed' : Byte) :
    crc8 (b0 ^^^ e0) (b1 ^^^ e1) (seed ^^^ seed') = crc8 b0 b1 seed ^^^ crc8 e0 e1 seed' := by
  rw [crc8, crcByte_xor, crcByte_xor, crc8, crc8]

/-- An error in the data of a group is caught if its own CRC, with seed 0, is not 0 (42_checksum.md R186). -/
theorem groupOk_xor_data {d0 d1 c e0 e1 : Byte} (h : groupOk d0 d1 c = true) (he : crc8 e0 e1 0x00#8 ≠ 0#8) :
    groupOk (d0 ^^^ e0) (d1 ^^^ e1) c = false := by
  rw [groupOk_eq_decide, decide_eq_true_iff] at h
  rw [groupOk_eq_decide, decide_eq_false_iff_not]
  have hlin := crc8_xor d0 d1 0xFF#8 e0 e1 0x00#8
  rw [BitVec.xor_zero] at hlin
  rw [hlin, h]
  simpa using he

/-- Settles O28: linearity, and the sixteen data errors and eight checksum errors of one bit. -/
theorem singleBitFlipsAreCaught : Obligations.SingleBitFlipsAreCaught := by
  unfold Obligations.SingleBitFlipsAreCaught
  refine ⟨fun b0 b1 e0 e1 seed => ?_, fun d0 d1 c k h => ⟨fun hk => ?_, fun hk => ?_, fun hk => ?_⟩⟩
  · have hlin := crc8_xor b0 b1 seed e0 e1 0x00#8
    rwa [BitVec.xor_zero] at hlin
  · have hcaught : crc8 0#8 (1#8 <<< k) 0x00#8 ≠ 0#8 := by revert k; decide +kernel
    simpa using groupOk_xor_data h hcaught
  · have hcaught : crc8 (1#8 <<< k) 0#8 0x00#8 ≠ 0#8 := by revert k; decide +kernel
    simpa using groupOk_xor_data h hcaught
  · have herr : (1#8 : Byte) <<< k ≠ 0#8 := by revert k; decide
    rw [groupOk_eq_decide, decide_eq_true_iff] at h
    rw [groupOk_eq_decide, decide_eq_false_iff_not, h, eq_comm]
    simpa using herr

end Sys2Proof.Machine
end

section
/-! PROOFS. 44_session_ops.md R233 to R236: the path of an operation from its start step to its end, with no other agent's move pending. -/

namespace Sys2Proof.Machine

/-! ## The stretches of the path -/

theorem ReachesWithin.reaches {n : Nat} {s t : State} (h : ReachesWithin n s t) (hi : s.inputs = []) : reaches s t := by
  obtain ⟨k, -, hrun⟩ := h
  exact ⟨k, hrun.run_core hi⟩

theorem reaches_one {s t : State} (h : step s = .next t) : reaches s t := ⟨1, run_one h⟩

/-- The state from which a begun operation sends its command: `P_CFG` of INIT is past (44_session_ops.md R231, R233). -/
def started (op : HostOp) (s : State) : State := { beginOp op (clearEnded s) with phase := .write }

section started

variable (op : HostOp) (s : State)

@[simp] theorem started_cfg : (started op s).cfg = s.cfg := by cases op <;> rfl
@[simp] theorem started_phase : (started op s).phase = .write := rfl
@[simp] theorem started_lop : (started op s).lop = latchOf op := beginOp_lop op _
@[simp] theorem started_pos : (started op s).pos = .closed := by cases op <;> rfl
@[simp] theorem started_ret : (started op s).ret = .none := by cases op <;> rfl
@[simp] theorem started_inputs : (started op s).inputs = s.inputs := by cases op <;> rfl
@[simp] theorem started_bytes : (started op s).bytes = s.bytes := by cases op <;> rfl
@[simp] theorem started_acks : (started op s).acks = s.acks := by cases op <;> rfl

end started

/-- INIT configures the bus, which in a quiescent block has nothing to release; every other operation begins with its command. -/
theorem reaches_started {op : HostOp} {s : State} (hq : Quiescent s) (hi : s.inputs = []) : reaches (beginOp op (clearEnded s)) (started op s) := by
  cases op with
  | init =>
    obtain ⟨-, -, -, -, hscl, hsda, -, -⟩ := hq
    refine reaches_one ((step_of_seq (s := beginOp .init (clearEnded s)) hi nofun).trans ?_)
    show Host.Outcome.next _ = _
    simp only [started, beginOp, clearOwn, clearEnded, discardRx, release, hscl, hsda]
  | rdsn | meas | pstart => exact reaches_refl _

/-- A begun operation sends its command. -/
theorem reaches_command {op : HostOp} {s : State} (hq : Quiescent s) (hi : s.inputs = []) :
    reaches (beginOp op (clearEnded s)) (sendCommand (commandOf op) (started op s)) :=
  reaches_trans (reaches_started hq hi)
    ((reaches_sendCommand (started_phase op s) (by simp) (by simp) (by simp)).reaches (by simpa using hi))

/-- The settle delay counts down to 0 by itself (41_command_protocol.md R162; log 7). -/
theorem reaches_settled {s : State} (hi : s.inputs = []) (hpos : s.pos = .closed) (ms : Nat) : reaches (enterSettle ms s) (enterSettle 0 s) := by
  induction ms with
  | zero => exact reaches_refl _
  | succ n ih =>
    refine reaches_step (step_of_tick hi rfl n.succ_pos) ?_
    have htick : tick (enterSettle (n + 1) s) = enterSettle n s := by
      simp only [tick, enterSettle, hpos, isOpen, if_true, Bool.false_eq_true, if_false, Nat.add_sub_cancel]
    rwa [htick]

section written

/-! The state after the command's WRITE has returned `OK`. -/

variable {s : State} (hi : s.inputs = []) (hp : s.phase = .write) (hpos : s.pos = .closed) (hret : s.ret = .ok)
include hi hp hpos hret

theorem step_afterWrite : step s = afterWrite s := by
  rw [step_of_seq hi (by simp [hp])]
  simp only [seqStep, hp, seqWrite, hpos, hret]

/-- INIT ends, after its delay where it has one (44_session_ops.md R233). -/
theorem reaches_finishInit (hop : latched s.lop = some .init) : reaches s (finishInit s) := by
  have hstep := step_afterWrite hi hp hpos hret
  simp only [afterWrite, withLatched, hop] at hstep
  split at hstep
  · exact reaches_one hstep
  · refine reaches_step hstep (reaches_trans (reaches_settled hi hpos _) (reaches_one ?_))
    rw [step_of_seq (s := enterSettle 0 s) hi fun _ => rfl]
    simp only [seqStep, enterSettle, if_true, afterSettle, withLatched, hop]
    rfl

theorem reaches_finishPstart {rate : BitVec 3} {rep : Rep} (hop : latched s.lop = some (.pstart rate rep)) : reaches s (finishPstart s) := by
  have hstep := step_afterWrite hi hp hpos hret
  simp only [afterWrite, withLatched, hop] at hstep
  exact reaches_one hstep

/-- RDSN and MEAS go on to `P_READ` after their delay (44_session_ops.md R234, R235). -/
theorem reaches_read {op : HostOp} {n : Nat} (hop : latched s.lop = some op) (hn : replyLength s.cfg op = some n) :
    reaches s { s with phase := .read, dly := 0, pos := .closed, ret := .none } := by
  have hdelay : ∃ ms, step s = .next (enterSettle ms s) := by
    have hstep := step_afterWrite hi hp hpos hret
    simp only [afterWrite, withLatched, hop] at hstep
    cases op with
    | init | pstart => cases hn
    | rdsn | meas => exact ⟨_, hstep⟩
  obtain ⟨ms, hms⟩ := hdelay
  refine reaches_step hms (reaches_trans (reaches_settled hi hpos ms) (reaches_one ?_))
  rw [step_of_seq (s := enterSettle 0 s) hi fun _ => rfl]
  simp only [seqStep, enterSettle, if_true, afterSettle, withLatched, hop]
  cases op with
  | init | pstart => cases hn
  | rdsn | meas => rfl

end written

/-- A transaction that has returned `BusError` is followed by the abort (60_exceptions.md R266). -/
theorem seqStep_busError {s : State} (hp : s.phase = .write ∨ s.phase = .read) (hpos : s.pos = .closed) (hret : s.ret = .busError) :
    seqStep s = .next (abort .busError s) := by
  obtain hp | hp := hp
  · simp only [seqStep, hp, seqWrite, hpos, hret]
  · simp only [seqStep, hp, seqRead, hpos, hret]

theorem reaches_abort {s : State} (hi : s.inputs = []) (hp : s.phase = .write ∨ s.phase = .read) (hpos : s.pos = .closed)
    (hret : s.ret = .busError) : reaches s (abort .busError s) := by
  have hw : s.phase = .settle → s.dly = 0 := by obtain hp | hp := hp <;> simp [hp]
  exact reaches_one ((step_of_seq hi hw).trans (seqStep_busError hp hpos hret))

/-! ## The end of the path -/

/-- What an operation underway has changed of the quiescent state it began in: its own results, `DONE`, `ERR`, `BUSY`, `LOP`, and hidden state. -/
def Underway (op : HostOp) (s u : State) : Prop :=
  u = { clearOwn op s with
    done := false, err := .ok, busy := true, lop := latchOf op, phase := u.phase, txbuf := u.txbuf, rxbuf := u.rxbuf, len := u.len, idx := u.idx,
    dly := u.dly, tmo := u.tmo, sclOut := u.sclOut, sdaOut := u.sdaOut, pos := u.pos, trace := u.trace, ret := u.ret, acks := u.acks,
    bytes := u.bytes, fresh := u.fresh }

/-- `complete` gives the block back as it was, but for the operation's own results and what the transactions have left (44_session_ops.md R232). -/
theorem complete_of_underway {op : HostOp} {s u : State} (hq : Quiescent s) (h : Underway op s u) (code : ErrCode) :
    complete code u = { clearOwn op s with
      done := true, err := code, lop := latchOf op, txbuf := u.txbuf, rxbuf := u.rxbuf, len := u.len, idx := u.idx, trace := u.trace,
      acks := u.acks, bytes := u.bytes, fresh := u.fresh } := by
  obtain ⟨hbusy, hphase, hdly, htmo, hscl, hsda, hpos, hret⟩ := hq
  rw [complete, h]
  cases op <;> simp only [clearOwn, hbusy, hphase, hdly, htmo, hscl, hsda, hpos, hret]

theorem Underway.discardRx {op : HostOp} {s u : State} (h : Underway op s u) : Underway op s (discardRx u) := by
  unfold Underway at h ⊢
  rw [h]
  cases op <;> rfl

/-- So does the abort, which discards `RXBUF` first (60_exceptions.md R266). -/
theorem abort_of_underway {op : HostOp} {s u : State} (hq : Quiescent s) (h : Underway op s u) (code : ErrCode) :
    abort code u = { clearOwn op s with
      done := true, err := code, lop := latchOf op, txbuf := u.txbuf, rxbuf := freeRx u.fresh, len := u.len, idx := u.idx, trace := u.trace,
      acks := u.acks, bytes := u.bytes, fresh := u.fresh + 6 } :=
  complete_of_underway hq h.discardRx code

/-! ## Operations without a reply -/

/-- The state after an operation's acknowledged command, from the quiescent state it began in. -/
def commanded (op : HostOp) (s : State) (ackRest : List Ack) : State :=
  { started op s with
    ret := .ok, txbuf := txOf (commandWord s.cfg (commandOf op)), acks := ackRest, tmo := Config.busTimeoutMs,
    trace := s.trace ++ commandSymbols s.cfg.devAddr (commandWord s.cfg (commandOf op)), sclOut := .released, sdaOut := .released,
    fresh := s.fresh + 17 }

theorem commanded_underway (op : HostOp) (s : State) (ackRest : List Ack) : Underway op s (commanded op s ackRest) := by cases op <;> rfl

theorem sendCommand_started {op : HostOp} {s : State} {ackRest : List Ack} (hacks : s.acks = .ack :: .ack :: .ack :: ackRest) :
    sendCommand (commandOf op) (started op s) = commanded op s ackRest := by
  rw [sendCommand_acked _ _ (by simpa using hacks), started_cfg]
  cases op <;> rfl

theorem reaches_commanded {op : HostOp} {s : State} {ackRest : List Ack} (hq : Quiescent s) (hi : s.inputs = [])
    (hacks : s.acks = .ack :: .ack :: .ack :: ackRest) : reaches (beginOp op (clearEnded s)) (commanded op s ackRest) :=
  sendCommand_started hacks ▸ reaches_command hq hi

/-- Settles O39: INIT's command, its delay, and its end. -/
theorem initRunsToIdle : Obligations.InitRunsToIdle := by
  unfold Obligations.InitRunsToIdle
  intro s hi lo rest hq hin hword hacks
  refine ⟨_, finishInit (commanded .init s rest), congrArg Host.Outcome.next (startOp_of_admitted hq.1 rfl), beginOp_busy _ _, ?_, ?_⟩
  · exact reaches_trans (reaches_commanded hq hin hacks) (reaches_finishInit hin rfl rfl rfl rfl)
  · show { complete .ok (commanded .init s rest) with mode := .idle } = _
    rw [complete_of_underway hq (commanded_underway .init s rest)]
    simp only [clearOwn, commanded, commandOf, commandWord, hword, txOf_append, commandSymbols_append]
    rfl

/-- Settles O40: PSTART's command, and its end at once. -/
theorem pstartRunsToPeriodic : Obligations.PstartRunsToPeriodic := by
  unfold Obligations.PstartRunsToPeriodic
  intro s rate rep hi lo rest hq hin hopt hrate hmode hword hacks
  have hadm := (admitted_pstart_iff rate rep s).2 ⟨hopt, hrate, hmode⟩
  refine ⟨_, finishPstart (commanded (.pstart rate rep) s rest), congrArg Host.Outcome.next (startOp_of_admitted hq.1 hadm), beginOp_busy _ _,
    ?_, ?_⟩
  · exact reaches_trans (reaches_commanded hq hin hacks) (reaches_finishPstart hin rfl rfl rfl (latched_latchOf (.pstart rate rep)))
  · show { complete .ok (commanded (.pstart rate rep) s rest) with mode := .periodicMeasuring } = _
    rw [complete_of_underway hq (commanded_underway (.pstart rate rep) s rest)]
    simp only [clearOwn, commanded, commandOf, hword, txOf_append, commandSymbols_append]
    rfl

/-! ## A command that is not acknowledged -/

/-- The rows that start an operation, each with the operation it starts. -/
theorem exec_of_row {s : State} {i : Instr} {op : HostOp} (hb : s.busy = false)
    (h : (i, op) ∈ [(Instr.init, HostOp.init), (.rdsn, .rdsn), (.measH, .meas .high), (.measM, .meas .medium), (.measL, .meas .low)] ∨
      (∃ rate rep, i = .pstart rate rep ∧ op = .pstart rate rep ∧ admitted op s = true)) :
    exec i s = .next (beginOp op (clearEnded s)) := by
  have hstart : exec i s = .next (startOp op s) ∧ admitted op s = true := by
    obtain hrow | ⟨rate, rep, rfl, rfl, hadm⟩ := h
    · simp only [List.mem_cons, Prod.mk.injEq, List.not_mem_nil, or_false] at hrow
      obtain ⟨rfl, rfl⟩ | ⟨rfl, rfl⟩ | ⟨rfl, rfl⟩ | ⟨rfl, rfl⟩ | ⟨rfl, rfl⟩ := hrow <;> exact ⟨rfl, rfl⟩
    · exact ⟨rfl, hadm⟩
  rw [hstart.1, startOp_of_admitted hb hstart.2]

/-- Settles O41: the abort after a failed WRITE, and the operation that ends in it. -/
theorem commandFailureEndsOperation : Obligations.CommandFailureEndsOperation := by
  unfold Obligations.CommandFailureEndsOperation
  constructor
  · intro s rest hi hp hpos hret
    have hstep := step_of_seq_or_nil hi (by simp [hp])
    exact ⟨_, hstep.trans (seqStep_busError (s := { s with inputs := rest }) (.inl hp) hpos hret), aborted_abort _ _⟩
  · intro s i op before after b a rest hrow hq hin hbytes ha hacks
    have hsent := sendCommand_failed (commandOf op) (started op s) (by simpa using hbytes) ha (by simpa using hacks)
    refine ⟨_, abort .busError (sendCommand (commandOf op) (started op s)), exec_of_row hq.1 hrow, beginOp_busy _ _, ?_, ?_⟩
    · refine reaches_trans (reaches_command hq hin) (reaches_abort ?_ ?_ ?_ ?_) <;> simp [hsent, hin]
    · have hu : Underway op s (sendCommand (commandOf op) (started op s)) := by rw [hsent]; cases op <;> rfl
      rw [abort_of_underway hq hu, hsent]
      cases op <;> rfl

end Sys2Proof.Machine
end

section
/-! PROOFS. 44_session_ops.md R234, R235, 60_exceptions.md R265: the operations that read a reply, and how each can end. -/

namespace Sys2Proof.Machine

/-! ## From the command to the reply -/

/-- The state in which an operation's reply is about to be read. -/
def awaiting (op : HostOp) (s : State) (ackRest : List Ack) : State :=
  { commanded op s ackRest with phase := .read, dly := 0, pos := .closed, ret := .none }

theorem awaiting_cfg (op : HostOp) (s : State) (ackRest : List Ack) : (awaiting op s ackRest).cfg = s.cfg := started_cfg op s

/-- An acknowledged command with a reply leads to that reply's READ (41_command_protocol.md R161). -/
theorem reaches_reply {op : HostOp} {s : State} {n : Nat} {ackRest : List Ack} (hq : Quiescent s) (hi : s.inputs = [])
    (hn : replyLength s.cfg op = some n) (hacks : s.acks = .ack :: .ack :: .ack :: ackRest) :
    reaches (beginOp op (clearEnded s)) (readTransaction s.cfg.devAddr n (awaiting op s ackRest)) := by
  have hcfg : (commanded op s ackRest).cfg = s.cfg := started_cfg op s
  have hlop : latched (commanded op s ackRest).lop = some op := (congrArg latched (started_lop op s)).trans (latched_latchOf op)
  have hinputs : (commanded op s ackRest).inputs = [] := (started_inputs op s).trans hi
  have hread := reaches_read hinputs rfl (started_pos op s) rfl hlop (by rw [hcfg]; exact hn)
  have htrans := reaches_readTransaction (s := awaiting op s ackRest) (n := n) rfl rfl rfl (by
    show (latched (commanded op s ackRest).lop).bind (replyLength (commanded op s ackRest).cfg) = some n
    rw [hlop, hcfg]
    exact hn)
  rw [awaiting_cfg] at htrans
  exact reaches_trans (reaches_commanded hq hi hacks) (reaches_trans hread (htrans.reaches hinputs))

/-! ## A reply that fails -/

/-- The rows whose operation reads a reply are rows that start an operation. -/
theorem exec_of_reply_row {s : State} {i : Instr} {op : HostOp} (hb : s.busy = false)
    (h : (i, op) ∈ [(Instr.rdsn, HostOp.rdsn), (.measH, .meas .high), (.measM, .meas .medium), (.measL, .meas .low)]) :
    exec i s = .next (beginOp op (clearEnded s)) :=
  exec_of_row hb (.inl (List.mem_cons_of_mem _ h))

/-- An operation whose READ has failed ends in the abort, with what the READ has left (60_exceptions.md R265, R266). -/
theorem reaches_abort_of_reply {op : HostOp} {s u : State} {n : Nat} {ackRest : List Ack} (hq : Quiescent s) (hi : s.inputs = [])
    (hn : replyLength s.cfg op = some n) (hacks : s.acks = .ack :: .ack :: .ack :: ackRest)
    (hread : readTransaction s.cfg.devAddr n (awaiting op s ackRest) = u) (hinputs : u.inputs = (started op s).inputs) (hp : u.phase = .read)
    (hpos : u.pos = .closed) (hret : u.ret = .busError) : reaches (beginOp op (clearEnded s)) (abort .busError u) := by
  have hrun := reaches_reply hq hi hn hacks
  rw [hread] at hrun
  exact reaches_trans hrun (reaches_abort (by simp [hinputs, hi]) (.inr hp) hpos hret)

/-- Settles O45: the address refused, or a byte timed out; the abort follows either. -/
theorem replyFailureEndsOperation : Obligations.ReplyFailureEndsOperation := by
  unfold Obligations.ReplyFailureEndsOperation
  intro s i op n hrow hn hq hi
  have hexec := exec_of_reply_row hq.1 hrow
  constructor
  · intro a ackRest ha hacks
    have hread := readTransaction_refused (awaiting op s (a :: ackRest)) s.cfg.devAddr n ha rfl
    refine ⟨_, _, hexec, beginOp_busy _ _, reaches_abort_of_reply hq hi hn hacks hread rfl rfl rfl rfl, ?_⟩
    rw [abort_of_underway hq (op := op) (by cases op <;> rfl)]
    cases op <;> simp [clearOwn, awaiting, commanded]
  · intro vs ackRest byteRest hlen hacks hbytes
    have hread := readTransaction_timeout (awaiting op s (.ack :: ackRest)) s.cfg.devAddr hlen rfl (by cases op <;> exact hbytes)
    refine ⟨_, _, hexec, beginOp_busy _ _, reaches_abort_of_reply hq hi hn hacks hread rfl rfl rfl rfl, ?_⟩
    rw [abort_of_underway hq (op := op) (by cases op <;> rfl)]
    cases op <;> simp [clearOwn, awaiting, commanded]

/-! ## A reply whose bytes all arrive -/

/-- The state in which a complete reply is about to be decoded. -/
def received (op : HostOp) (s : State) (vs : List Byte) (ackRest : List Ack) (byteRest : List PeerByte) : State :=
  { awaiting op s ackRest with
    phase := .decode, acks := ackRest, bytes := byteRest, rxbuf := storeAll vs 0 (awaiting op s ackRest).rxbuf, len := vs.length, idx := vs.length,
    trace := s.trace ++ exchange s.cfg.devAddr (commandWord s.cfg (commandOf op)) vs, fresh := s.fresh + 22 + 3 * vs.length }

theorem received_underway (op : HostOp) (s : State) (vs : List Byte) (ackRest : List Ack) (byteRest : List PeerByte) :
    Underway op s (received op s vs ackRest byteRest) := by cases op <;> rfl

/-- A READ that has returned `OK` is followed by `P_DECODE` (44_session_ops.md R240). -/
theorem reaches_decode {s : State} (hi : s.inputs = []) (hp : s.phase = .read) (hpos : s.pos = .closed) (hret : s.ret = .ok) :
    reaches s { s with phase := .decode, ret := .none } := by
  refine reaches_one ((step_of_seq hi (by simp [hp])).trans ?_)
  simp only [seqStep, hp, seqRead, hpos, hret]

/-- Command and reply: the READ returns `OK`, and the sequencer goes on to `P_DECODE` (44_session_ops.md R234, R235). -/
theorem reaches_received {op : HostOp} {s : State} {vs : List Byte} {ackRest : List Ack} {byteRest : List PeerByte} (hq : Quiescent s)
    (hi : s.inputs = []) (hn : replyLength s.cfg op = some vs.length) (hacks : s.acks = .ack :: .ack :: .ack :: .ack :: ackRest)
    (hbytes : s.bytes = vs.map .byte ++ byteRest) :
    reaches (beginOp op (clearEnded s)) (received op s vs ackRest byteRest) := by
  have hread := readTransaction_bytes (awaiting op s (.ack :: ackRest)) s.cfg.devAddr rfl ((started_bytes op s).trans hbytes)
  have hstate : { readTransaction s.cfg.devAddr vs.length (awaiting op s (.ack :: ackRest)) with phase := .decode, ret := .none } =
      received op s vs ackRest byteRest := by
    rw [hread]
    simp [received, awaiting, commanded, exchange]
  rw [← hstate]
  refine reaches_trans (reaches_reply hq hi hn hacks) (reaches_decode ?_ ?_ ?_ ?_) <;> rw [hread]
  · exact (started_inputs op s).trans hi
  · rfl

/-- In `P_DECODE` the one step is the operation's last. -/
theorem reaches_decoded {op : HostOp} {s t : State} {vs : List Byte} {ackRest : List Ack} {byteRest : List PeerByte} (hq : Quiescent s)
    (hi : s.inputs = []) (hn : replyLength s.cfg op = some vs.length) (hacks : s.acks = .ack :: .ack :: .ack :: .ack :: ackRest)
    (hbytes : s.bytes = vs.map .byte ++ byteRest) (ht : seqDecode (received op s vs ackRest byteRest) = .next t) :
    reaches (beginOp op (clearEnded s)) t := by
  refine reaches_trans (reaches_received hq hi hn hacks hbytes) (reaches_one ?_)
  rw [step_of_seq (s := received op s vs ackRest byteRest) ((started_inputs op s).trans hi) nofun]
  exact ht

/-! ## The decoding of a reply -/

/-- Which error a reply of MEAS raises: the frame's, then the temperature's (60_exceptions.md R265). -/
theorem measReply_ok {r : RxBuf} (hframe : frameOk r = true) (htemp : tOk (rawTOf r) = true) : (frameError r).or (measError r) = none := by
  rw [frameError_none.2 hframe, measError_none.2 htemp]
  rfl

theorem measReply_checksum {r : RxBuf} (hframe : ¬ frameOk r = true) : (frameError r).or (measError r) = some .checksumMismatch := by
  rw [frameError_of_not_ok hframe]
  rfl

theorem measReply_implausible {r : RxBuf} (hframe : frameOk r = true) (htemp : ¬ tOk (rawTOf r) = true) :
    (frameError r).or (measError r) = some .implausibleReading := by
  rw [frameError_none.2 hframe, measError_of_not_tOk htemp]
  rfl

section decode

variable {u : State} {r : RxBuf} (hrx : u.rxbuf = r)
include hrx

theorem seqDecode_meas {rep : Rep} (hop : latched u.lop = some (.meas rep)) :
    seqDecode u = .next (unlessError ((frameError r).or (measError r))
      (finishMeas (tWord (rawTOf r)) (hWord (rawHOf r)) (rawTOf r) (rawHOf r)) u) := by
  simp only [seqDecode, withLatched, hop, decodeMeas, hrx]

theorem seqDecode_raw4 (hop : latched u.lop = some .rdsn) (hmode : u.cfg.serialMode = .raw4) :
    seqDecode u = .next (unlessError (serialError (serialRaw4Of r)) (finishRdsn (serialRaw4Of r)) u) := by
  simp only [seqDecode, withLatched, hop, decodeSerial, hmode, hrx]

theorem seqDecode_checked6 (hop : latched u.lop = some .rdsn) (hmode : u.cfg.serialMode = .checked6) :
    seqDecode u = .next (unlessError (checkedSerialError r) (finishRdsn (serialChecked6Of r)) u) := by
  simp only [seqDecode, withLatched, hop, decodeSerial, hmode, hrx]

end decode

section ends

variable {s : State} (hq : Quiescent s) (vs : List Byte) (ackRest : List Ack) (byteRest : List PeerByte)
include hq

/-- The whole of MEAS, whichever way it ends: beside its own results it leaves what the transactions did (44_session_ops.md R235). -/
theorem meas_end_eq (rep : Rep) (e : Option ErrCode) (rawT rawH : W16) {t : State}
    (ht : t = unlessError e (finishMeas (tWord rawT) (hWord rawH) rawT rawH) (received (.meas rep) s vs ackRest byteRest)) :
    t = { s with
      done := true, err := t.err, mvalid := t.mvalid, temp := t.temp, hum := t.hum, rawt := t.rawt, rawh := t.rawh,
      lop := latchOf (.meas rep), txbuf := txOf (s.cfg.cmdSsStretch.at rep), rxbuf := t.rxbuf, len := vs.length, idx := vs.length,
      acks := ackRest, bytes := byteRest, trace := s.trace ++ exchange s.cfg.devAddr (s.cfg.cmdSsStretch.at rep) vs, fresh := t.fresh } := by
  have hu := received_underway (.meas rep) s vs ackRest byteRest
  cases e with
  | none =>
    have hend : t = { complete .ok (received (.meas rep) s vs ackRest byteRest) with
      temp := tWord rawT, hum := hWord rawH, rawt := rawT, rawh := rawH, mvalid := true } := ht
    rw [hend, complete_of_underway hq hu]
    rfl
  | some code =>
    have hend : t = abort code (received (.meas rep) s vs ackRest byteRest) := ht
    rw [hend, abort_of_underway hq hu]
    rfl

/-- The whole of RDSN, whichever way it ends (44_session_ops.md R234). -/
theorem rdsn_end_eq (e : Option ErrCode) (sn : W32) {t : State}
    (ht : t = unlessError e (finishRdsn sn) (received .rdsn s vs ackRest byteRest)) :
    t = { s with
      done := true, err := t.err, snvalid := t.snvalid, serial := t.serial, lop := latchOf .rdsn, txbuf := txOf s.cfg.cmdReadSerial,
      rxbuf := t.rxbuf, len := vs.length, idx := vs.length, acks := ackRest, bytes := byteRest,
      trace := s.trace ++ exchange s.cfg.devAddr s.cfg.cmdReadSerial vs, fresh := t.fresh } := by
  have hu := received_underway .rdsn s vs ackRest byteRest
  cases e with
  | none =>
    have hend : t = { complete .ok (received .rdsn s vs ackRest byteRest) with serial := sn, snvalid := true } := ht
    rw [hend, complete_of_underway hq hu]
    rfl
  | some code =>
    have hend : t = abort code (received .rdsn s vs ackRest byteRest) := ht
    rw [hend, abort_of_underway hq hu]
    rfl

end ends

/-- Settles O42: the frame's checks come before the temperature's, and MEAS ends by the first that fails. -/
theorem measRunsToItsResult : Obligations.MeasRunsToItsResult := by
  unfold Obligations.MeasRunsToItsResult
  intro s i rep b0 b1 b2 b3 b4 b5 rawT rawH ackRest byteRest hrow hq hi hacks hbytes hT hH
  have hexec : exec i s = .next (beginOp (.meas rep) (clearEnded s)) := by
    refine exec_of_reply_row hq.1 ?_
    simp only [List.mem_cons, Prod.mk.injEq, List.not_mem_nil, or_false] at hrow
    obtain ⟨rfl, rfl⟩ | ⟨rfl, rfl⟩ | ⟨rfl, rfl⟩ := hrow <;> simp
  obtain ⟨r, hr⟩ : ∃ r : RxBuf, r = ⟨b0, b1, b2, b3, b4, b5⟩ := ⟨_, rfl⟩
  have hframe : frameOk r = true ↔ crc8 b0 b1 0xFF#8 = b2 ∧ crc8 b3 b4 0xFF#8 = b5 := hr ▸ frameOk_iff b0 b1 b2 b3 b4 b5
  have hrawT : rawTOf r = rawT := rawTOf_eq (by rw [hr, hT])
  have hrawH : rawHOf r = rawH := rawHOf_eq (by rw [hr, hH])
  have hdec := seqDecode_meas (u := received (.meas rep) s [b0, b1, b2, b3, b4, b5] ackRest byteRest) hr.symm (latched_latchOf (.meas rep))
  rw [hrawT, hrawH] at hdec
  have htok : tOk (rawTOf r) = true ↔ 9363 ≤ rawT.toNat ∧ rawT.toNat ≤ 63662 := hrawT ▸ tOk_iff rawT
  refine ⟨_, _, hexec, beginOp_busy _ _, reaches_decoded hq hi rfl hacks hbytes hdec, ?_, ?_, ?_, meas_end_eq hq _ _ _ rep _ rawT rawH rfl⟩
  · rintro ⟨h0, h1, hlo, hhi⟩
    rw [measReply_ok (hframe.2 ⟨h0, h1⟩) (htok.2 ⟨hlo, hhi⟩)]
    exact ⟨rfl, rfl, rfl, rfl, rfl, rfl⟩
  · intro hbad
    rw [measReply_checksum fun h => not_and_or.2 hbad (hframe.1 h)]
    exact ⟨rfl, rfl, rfl, rfl, rfl, rfl⟩
  · rintro ⟨h0, h1, hout⟩
    rw [measReply_implausible (hframe.2 ⟨h0, h1⟩) fun h => by have := htok.1 h; omega]
    exact ⟨rfl, rfl, rfl, rfl, rfl, rfl⟩

/-- Settles O43: in raw4 mode the sentinel is the one test. -/
theorem rdsnRaw4RunsToItsResult : Obligations.RdsnRaw4RunsToItsResult := by
  unfold Obligations.RdsnRaw4RunsToItsResult
  intro s b0 b1 b2 b3 sn ackRest byteRest hmode hq hi hacks hbytes hsn
  obtain ⟨r, hr⟩ : ∃ r : RxBuf, r = (received .rdsn s [b0, b1, b2, b3] ackRest byteRest).rxbuf := ⟨_, rfl⟩
  have hserial : serialRaw4Of r = sn := serialRaw4Of_eq (by rw [hr]; exact hsn)
  have hdec := seqDecode_raw4 hr.symm (latched_latchOf .rdsn) hmode
  rw [hserial] at hdec
  have hn : replyLength s.cfg .rdsn = some 4 := by simp only [replyLength, hmode]
  refine ⟨_, _, exec_of_reply_row hq.1 (List.mem_cons_self ..), beginOp_busy _ _,
    reaches_decoded (vs := [_, _, _, _]) hq hi hn hacks hbytes hdec, ?_, ?_,
    rdsn_end_eq hq _ _ _ _ sn rfl⟩
  · intro hne
    rw [serialError_none.2 hne]
    exact ⟨rfl, rfl, rfl⟩
  · intro hones
    rw [serialError_of_sentinel hones]
    exact ⟨rfl, rfl, rfl⟩

/-- Settles O44: in checked6 mode the checksums are tested before the sentinel. -/
theorem rdsnChecked6RunsToItsResult : Obligations.RdsnChecked6RunsToItsResult := by
  unfold Obligations.RdsnChecked6RunsToItsResult
  intro s b0 b1 b2 b3 b4 b5 sn ackRest byteRest hmode hq hi hacks hbytes hsn
  obtain ⟨r, hr⟩ : ∃ r : RxBuf, r = ⟨b0, b1, b2, b3, b4, b5⟩ := ⟨_, rfl⟩
  have hframe : frameOk r = true ↔ crc8 b0 b1 0xFF#8 = b2 ∧ crc8 b3 b4 0xFF#8 = b5 := hr ▸ frameOk_iff b0 b1 b2 b3 b4 b5
  have hserial : serialChecked6Of r = sn := serialChecked6Of_eq (by rw [hr, hsn])
  have hdec := seqDecode_checked6 (u := received .rdsn s [b0, b1, b2, b3, b4, b5] ackRest byteRest) hr.symm (latched_latchOf .rdsn) hmode
  rw [hserial] at hdec
  have hn : replyLength s.cfg .rdsn = some 6 := by simp only [replyLength, hmode]
  refine ⟨_, _, exec_of_reply_row hq.1 (List.mem_cons_self ..), beginOp_busy _ _,
    reaches_decoded (vs := [_, _, _, _, _, _]) hq hi hn hacks hbytes hdec, ?_, ?_, ?_,
    rdsn_end_eq hq _ _ _ _ sn rfl⟩
  · intro hbad
    rw [checkedSerialError_of_not_ok fun h => not_and_or.2 hbad (hframe.1 h)]
    exact ⟨rfl, rfl, rfl⟩
  · rintro ⟨h0, h1, hne⟩
    rw [checkedSerialError_of_ok (hframe.2 ⟨h0, h1⟩), hserial, serialError_none.2 hne]
    exact ⟨rfl, rfl, rfl⟩
  · rintro ⟨h0, h1, hones⟩
    rw [checkedSerialError_of_ok (hframe.2 ⟨h0, h1⟩), hserial, serialError_of_sentinel hones]
    exact ⟨rfl, rfl, rfl⟩

end Sys2Proof.Machine
end
